-- ==== Sys2Proof/Word.lean ====
section
/-! DEFINITION. Word.lean: the word types of the CPU and of the picture bus, and the type of a memory
(00_scope.md rules R6, R7: 8-bit data, 16-bit CPU addresses, 14-bit picture addresses). -/

namespace Sys2Proof

/-- CPU data width, 8 bits (00_scope.md R6). -/
abbrev Byte := BitVec 8

/-- CPU address width, 16 bits (00_scope.md R6). -/
abbrev Word := BitVec 16

/-- A memory of `w`-bit cells: a list of (index, cell) pairs. With `w = 8` it is a list of `Host.Cell`.
Its one canonical form is `Memory.wf`: indices strictly rising, no listed cell 0. An unlisted index
reads 0, the power-on contents of every memory of the machine (10_state.md R56; DEDUCED, log entry 7; safe). -/
abbrev Memory (w : Nat) := List (Nat × BitVec w)

end Sys2Proof
end

