-- ==== Sys2Proof/Syntax.lean ====
section
/-! DEFINITION. Syntax.lean: the instructions, one constructor for each documented row of
spec/opcode_table.json (mnemonic and addressing mode, 30_encoding.md R124, R127), and `und` for the
instruction that the 105 remaining rows are: "UND, the instruction every undefined opcode byte decodes to"
(44_cpu_undefined.md R240). `und` carries its row's opcode byte, so that every row is one value of the
opcode byte of one constructor (DESIGN CHOICE, log entry 15; safe). -/

namespace Sys2Proof

/-- The addressing modes that form an effective address for a data access (40_cpu_step_addressing.md
R147 to R154). -/
inductive Addr where
  | zp (z : Byte)
  | zpx (z : Byte)
  | zpy (z : Byte)
  | abs (a : Word)
  | abx (a : Word)
  | aby (a : Word)
  | izx (z : Byte)
  | izy (z : Byte)
deriving DecidableEq, Repr

/-- Where a read instruction takes its operand: the immediate byte or memory (R157, first pattern). -/
inductive Source where
  | imm (b : Byte)
  | mem (m : Addr)
deriving DecidableEq, Repr

/-- The operand of an instruction in each of the thirteen addressing modes (R144 to R156). -/
inductive Operand where
  | imp
  | acc
  | imm (b : Byte)
  | mem (m : Addr)
  | ind (p : Word)
  | rel (d : Byte)
deriving DecidableEq, Repr

/-- A read instruction's source as an operand. -/
def Source.toOperand : Source → Operand
  | .imm b => .imm b
  | .mem m => .mem m

/-- The number of operand bytes (30_encoding.md R121, R122). -/
def Operand.size : Operand → Nat
  | .imp | .acc => 0
  | .imm _ | .rel _ => 1
  | .mem (.zp _) | .mem (.zpx _) | .mem (.zpy _) | .mem (.izx _) | .mem (.izy _) => 1
  | .mem (.abs _) | .mem (.abx _) | .mem (.aby _) => 2
  | .ind _ => 2

/-- The 56 mnemonics and `UND`. -/
inductive Mnemonic where
  | LDA | LDX | LDY | STA | STX | STY | TAX | TAY
  | TXA | TYA | TSX | TXS | PHA | PHP | PLA | PLP
  | ADC | SBC | AND | ORA | EOR | BIT | CMP | CPX
  | CPY | INC | DEC | INX | INY | DEX | DEY | ASL
  | LSR | ROL | ROR | JMP | JSR | RTS | RTI | BRK
  | BCC | BCS | BEQ | BNE | BMI | BPL | BVC | BVS
  | CLC | SEC | CLI | SEI | CLD | SED | CLV | NOP
  | UND
deriving DecidableEq, Repr

/-- The instructions. A constructor is named by its row: mnemonic, then addressing mode. -/
inductive Instr where
  | ldaImm (b : Byte)
  | ldaZp (z : Byte)
  | ldaZpx (z : Byte)
  | ldaAbs (a : Word)
  | ldaAbx (a : Word)
  | ldaAby (a : Word)
  | ldaIzx (z : Byte)
  | ldaIzy (z : Byte)
  | ldxImm (b : Byte)
  | ldxZp (z : Byte)
  | ldxZpy (z : Byte)
  | ldxAbs (a : Word)
  | ldxAby (a : Word)
  | ldyImm (b : Byte)
  | ldyZp (z : Byte)
  | ldyZpx (z : Byte)
  | ldyAbs (a : Word)
  | ldyAbx (a : Word)
  | staZp (z : Byte)
  | staZpx (z : Byte)
  | staAbs (a : Word)
  | staAbx (a : Word)
  | staAby (a : Word)
  | staIzx (z : Byte)
  | staIzy (z : Byte)
  | stxZp (z : Byte)
  | stxZpy (z : Byte)
  | stxAbs (a : Word)
  | styZp (z : Byte)
  | styZpx (z : Byte)
  | styAbs (a : Word)
  | tax
  | tay
  | txa
  | tya
  | tsx
  | txs
  | pha
  | php
  | pla
  | plp
  | adcImm (b : Byte)
  | adcZp (z : Byte)
  | adcZpx (z : Byte)
  | adcAbs (a : Word)
  | adcAbx (a : Word)
  | adcAby (a : Word)
  | adcIzx (z : Byte)
  | adcIzy (z : Byte)
  | sbcImm (b : Byte)
  | sbcZp (z : Byte)
  | sbcZpx (z : Byte)
  | sbcAbs (a : Word)
  | sbcAbx (a : Word)
  | sbcAby (a : Word)
  | sbcIzx (z : Byte)
  | sbcIzy (z : Byte)
  | andImm (b : Byte)
  | andZp (z : Byte)
  | andZpx (z : Byte)
  | andAbs (a : Word)
  | andAbx (a : Word)
  | andAby (a : Word)
  | andIzx (z : Byte)
  | andIzy (z : Byte)
  | oraImm (b : Byte)
  | oraZp (z : Byte)
  | oraZpx (z : Byte)
  | oraAbs (a : Word)
  | oraAbx (a : Word)
  | oraAby (a : Word)
  | oraIzx (z : Byte)
  | oraIzy (z : Byte)
  | eorImm (b : Byte)
  | eorZp (z : Byte)
  | eorZpx (z : Byte)
  | eorAbs (a : Word)
  | eorAbx (a : Word)
  | eorAby (a : Word)
  | eorIzx (z : Byte)
  | eorIzy (z : Byte)
  | bitZp (z : Byte)
  | bitAbs (a : Word)
  | cmpImm (b : Byte)
  | cmpZp (z : Byte)
  | cmpZpx (z : Byte)
  | cmpAbs (a : Word)
  | cmpAbx (a : Word)
  | cmpAby (a : Word)
  | cmpIzx (z : Byte)
  | cmpIzy (z : Byte)
  | cpxImm (b : Byte)
  | cpxZp (z : Byte)
  | cpxAbs (a : Word)
  | cpyImm (b : Byte)
  | cpyZp (z : Byte)
  | cpyAbs (a : Word)
  | incZp (z : Byte)
  | incZpx (z : Byte)
  | incAbs (a : Word)
  | incAbx (a : Word)
  | decZp (z : Byte)
  | decZpx (z : Byte)
  | decAbs (a : Word)
  | decAbx (a : Word)
  | inx
  | iny
  | dex
  | dey
  | aslAcc
  | aslZp (z : Byte)
  | aslZpx (z : Byte)
  | aslAbs (a : Word)
  | aslAbx (a : Word)
  | lsrAcc
  | lsrZp (z : Byte)
  | lsrZpx (z : Byte)
  | lsrAbs (a : Word)
  | lsrAbx (a : Word)
  | rolAcc
  | rolZp (z : Byte)
  | rolZpx (z : Byte)
  | rolAbs (a : Word)
  | rolAbx (a : Word)
  | rorAcc
  | rorZp (z : Byte)
  | rorZpx (z : Byte)
  | rorAbs (a : Word)
  | rorAbx (a : Word)
  | jmpAbs (a : Word)
  | jmpInd (p : Word)
  | jsrAbs (a : Word)
  | rts
  | rti
  | brk
  | bccRel (d : Byte)
  | bcsRel (d : Byte)
  | beqRel (d : Byte)
  | bneRel (d : Byte)
  | bmiRel (d : Byte)
  | bplRel (d : Byte)
  | bvcRel (d : Byte)
  | bvsRel (d : Byte)
  | clc
  | sec
  | cli
  | sei
  | cld
  | sed
  | clv
  | nop
  | und (op : Byte)
deriving DecidableEq, Repr

/-- The mnemonic and the operand of an instruction (the row and column of 30_encoding.md R127). -/
def Instr.form : Instr → Mnemonic × Operand
  | .ldaImm b => (.LDA, .imm b)
  | .ldaZp z => (.LDA, .mem (.zp z))
  | .ldaZpx z => (.LDA, .mem (.zpx z))
  | .ldaAbs a => (.LDA, .mem (.abs a))
  | .ldaAbx a => (.LDA, .mem (.abx a))
  | .ldaAby a => (.LDA, .mem (.aby a))
  | .ldaIzx z => (.LDA, .mem (.izx z))
  | .ldaIzy z => (.LDA, .mem (.izy z))
  | .ldxImm b => (.LDX, .imm b)
  | .ldxZp z => (.LDX, .mem (.zp z))
  | .ldxZpy z => (.LDX, .mem (.zpy z))
  | .ldxAbs a => (.LDX, .mem (.abs a))
  | .ldxAby a => (.LDX, .mem (.aby a))
  | .ldyImm b => (.LDY, .imm b)
  | .ldyZp z => (.LDY, .mem (.zp z))
  | .ldyZpx z => (.LDY, .mem (.zpx z))
  | .ldyAbs a => (.LDY, .mem (.abs a))
  | .ldyAbx a => (.LDY, .mem (.abx a))
  | .staZp z => (.STA, .mem (.zp z))
  | .staZpx z => (.STA, .mem (.zpx z))
  | .staAbs a => (.STA, .mem (.abs a))
  | .staAbx a => (.STA, .mem (.abx a))
  | .staAby a => (.STA, .mem (.aby a))
  | .staIzx z => (.STA, .mem (.izx z))
  | .staIzy z => (.STA, .mem (.izy z))
  | .stxZp z => (.STX, .mem (.zp z))
  | .stxZpy z => (.STX, .mem (.zpy z))
  | .stxAbs a => (.STX, .mem (.abs a))
  | .styZp z => (.STY, .mem (.zp z))
  | .styZpx z => (.STY, .mem (.zpx z))
  | .styAbs a => (.STY, .mem (.abs a))
  | .tax => (.TAX, .imp)
  | .tay => (.TAY, .imp)
  | .txa => (.TXA, .imp)
  | .tya => (.TYA, .imp)
  | .tsx => (.TSX, .imp)
  | .txs => (.TXS, .imp)
  | .pha => (.PHA, .imp)
  | .php => (.PHP, .imp)
  | .pla => (.PLA, .imp)
  | .plp => (.PLP, .imp)
  | .adcImm b => (.ADC, .imm b)
  | .adcZp z => (.ADC, .mem (.zp z))
  | .adcZpx z => (.ADC, .mem (.zpx z))
  | .adcAbs a => (.ADC, .mem (.abs a))
  | .adcAbx a => (.ADC, .mem (.abx a))
  | .adcAby a => (.ADC, .mem (.aby a))
  | .adcIzx z => (.ADC, .mem (.izx z))
  | .adcIzy z => (.ADC, .mem (.izy z))
  | .sbcImm b => (.SBC, .imm b)
  | .sbcZp z => (.SBC, .mem (.zp z))
  | .sbcZpx z => (.SBC, .mem (.zpx z))
  | .sbcAbs a => (.SBC, .mem (.abs a))
  | .sbcAbx a => (.SBC, .mem (.abx a))
  | .sbcAby a => (.SBC, .mem (.aby a))
  | .sbcIzx z => (.SBC, .mem (.izx z))
  | .sbcIzy z => (.SBC, .mem (.izy z))
  | .andImm b => (.AND, .imm b)
  | .andZp z => (.AND, .mem (.zp z))
  | .andZpx z => (.AND, .mem (.zpx z))
  | .andAbs a => (.AND, .mem (.abs a))
  | .andAbx a => (.AND, .mem (.abx a))
  | .andAby a => (.AND, .mem (.aby a))
  | .andIzx z => (.AND, .mem (.izx z))
  | .andIzy z => (.AND, .mem (.izy z))
  | .oraImm b => (.ORA, .imm b)
  | .oraZp z => (.ORA, .mem (.zp z))
  | .oraZpx z => (.ORA, .mem (.zpx z))
  | .oraAbs a => (.ORA, .mem (.abs a))
  | .oraAbx a => (.ORA, .mem (.abx a))
  | .oraAby a => (.ORA, .mem (.aby a))
  | .oraIzx z => (.ORA, .mem (.izx z))
  | .oraIzy z => (.ORA, .mem (.izy z))
  | .eorImm b => (.EOR, .imm b)
  | .eorZp z => (.EOR, .mem (.zp z))
  | .eorZpx z => (.EOR, .mem (.zpx z))
  | .eorAbs a => (.EOR, .mem (.abs a))
  | .eorAbx a => (.EOR, .mem (.abx a))
  | .eorAby a => (.EOR, .mem (.aby a))
  | .eorIzx z => (.EOR, .mem (.izx z))
  | .eorIzy z => (.EOR, .mem (.izy z))
  | .bitZp z => (.BIT, .mem (.zp z))
  | .bitAbs a => (.BIT, .mem (.abs a))
  | .cmpImm b => (.CMP, .imm b)
  | .cmpZp z => (.CMP, .mem (.zp z))
  | .cmpZpx z => (.CMP, .mem (.zpx z))
  | .cmpAbs a => (.CMP, .mem (.abs a))
  | .cmpAbx a => (.CMP, .mem (.abx a))
  | .cmpAby a => (.CMP, .mem (.aby a))
  | .cmpIzx z => (.CMP, .mem (.izx z))
  | .cmpIzy z => (.CMP, .mem (.izy z))
  | .cpxImm b => (.CPX, .imm b)
  | .cpxZp z => (.CPX, .mem (.zp z))
  | .cpxAbs a => (.CPX, .mem (.abs a))
  | .cpyImm b => (.CPY, .imm b)
  | .cpyZp z => (.CPY, .mem (.zp z))
  | .cpyAbs a => (.CPY, .mem (.abs a))
  | .incZp z => (.INC, .mem (.zp z))
  | .incZpx z => (.INC, .mem (.zpx z))
  | .incAbs a => (.INC, .mem (.abs a))
  | .incAbx a => (.INC, .mem (.abx a))
  | .decZp z => (.DEC, .mem (.zp z))
  | .decZpx z => (.DEC, .mem (.zpx z))
  | .decAbs a => (.DEC, .mem (.abs a))
  | .decAbx a => (.DEC, .mem (.abx a))
  | .inx => (.INX, .imp)
  | .iny => (.INY, .imp)
  | .dex => (.DEX, .imp)
  | .dey => (.DEY, .imp)
  | .aslAcc => (.ASL, .acc)
  | .aslZp z => (.ASL, .mem (.zp z))
  | .aslZpx z => (.ASL, .mem (.zpx z))
  | .aslAbs a => (.ASL, .mem (.abs a))
  | .aslAbx a => (.ASL, .mem (.abx a))
  | .lsrAcc => (.LSR, .acc)
  | .lsrZp z => (.LSR, .mem (.zp z))
  | .lsrZpx z => (.LSR, .mem (.zpx z))
  | .lsrAbs a => (.LSR, .mem (.abs a))
  | .lsrAbx a => (.LSR, .mem (.abx a))
  | .rolAcc => (.ROL, .acc)
  | .rolZp z => (.ROL, .mem (.zp z))
  | .rolZpx z => (.ROL, .mem (.zpx z))
  | .rolAbs a => (.ROL, .mem (.abs a))
  | .rolAbx a => (.ROL, .mem (.abx a))
  | .rorAcc => (.ROR, .acc)
  | .rorZp z => (.ROR, .mem (.zp z))
  | .rorZpx z => (.ROR, .mem (.zpx z))
  | .rorAbs a => (.ROR, .mem (.abs a))
  | .rorAbx a => (.ROR, .mem (.abx a))
  | .jmpAbs a => (.JMP, .mem (.abs a))
  | .jmpInd p => (.JMP, .ind p)
  | .jsrAbs a => (.JSR, .mem (.abs a))
  | .rts => (.RTS, .imp)
  | .rti => (.RTI, .imp)
  | .brk => (.BRK, .imp)
  | .bccRel d => (.BCC, .rel d)
  | .bcsRel d => (.BCS, .rel d)
  | .beqRel d => (.BEQ, .rel d)
  | .bneRel d => (.BNE, .rel d)
  | .bmiRel d => (.BMI, .rel d)
  | .bplRel d => (.BPL, .rel d)
  | .bvcRel d => (.BVC, .rel d)
  | .bvsRel d => (.BVS, .rel d)
  | .clc => (.CLC, .imp)
  | .sec => (.SEC, .imp)
  | .cli => (.CLI, .imp)
  | .sei => (.SEI, .imp)
  | .cld => (.CLD, .imp)
  | .sed => (.SED, .imp)
  | .clv => (.CLV, .imp)
  | .nop => (.NOP, .imp)
  | .und _ => (.UND, .imp)

/-- The length of an instruction in bytes: the opcode byte and the operand bytes (R120, R121). -/
def Instr.length (i : Instr) : Nat := 1 + i.form.2.size

end Sys2Proof
end

