-- ==== Sys2Proof/Decode.lean ====
section
/-! DEFINITION. Decode.lean: from bytes to an instruction and back (30_encoding.md R120 to R132). The opcode
byte alone fixes the length, the mode and the operation (R120); the decoder is total on any three bytes
(R130) and refuses, by name, only a list that ends before the instruction does (DESIGN CHOICE, log entry 17;
safe). -/

namespace Sys2Proof

/-- The low byte of a 16-bit operand, byte 1 of format F3 (R121). -/
def loByte (a : Word) : Byte := a.extractLsb' 0 8

/-- The high byte of a 16-bit operand, byte 2 of format F3 (R121). -/
def hiByte (a : Word) : Byte := a.extractLsb' 8 8

/-- The 16-bit operand `(b2 << 8) | b1`, little-endian (R122). -/
def wordOf (b1 b2 : Byte) : Word := b2 ++ b1

/-- Row 0x of the matrix: the instruction in column `lo` of opcode `op`. -/
def matrixRow0 (lo : Nat) (op b1 b2 : Byte) : Instr :=
  match lo with
  | 0x0 => .brk
  | 0x1 => .oraIzx b1
  | 0x5 => .oraZp b1
  | 0x6 => .aslZp b1
  | 0x8 => .php
  | 0x9 => .oraImm b1
  | 0xA => .aslAcc
  | 0xD => .oraAbs (wordOf b1 b2)
  | 0xE => .aslAbs (wordOf b1 b2)
  | _ => .und op

/-- Row 1x of the matrix: the instruction in column `lo` of opcode `op`. -/
def matrixRow1 (lo : Nat) (op b1 b2 : Byte) : Instr :=
  match lo with
  | 0x0 => .bplRel b1
  | 0x1 => .oraIzy b1
  | 0x5 => .oraZpx b1
  | 0x6 => .aslZpx b1
  | 0x8 => .clc
  | 0x9 => .oraAby (wordOf b1 b2)
  | 0xD => .oraAbx (wordOf b1 b2)
  | 0xE => .aslAbx (wordOf b1 b2)
  | _ => .und op

/-- Row 2x of the matrix: the instruction in column `lo` of opcode `op`. -/
def matrixRow2 (lo : Nat) (op b1 b2 : Byte) : Instr :=
  match lo with
  | 0x0 => .jsrAbs (wordOf b1 b2)
  | 0x1 => .andIzx b1
  | 0x4 => .bitZp b1
  | 0x5 => .andZp b1
  | 0x6 => .rolZp b1
  | 0x8 => .plp
  | 0x9 => .andImm b1
  | 0xA => .rolAcc
  | 0xC => .bitAbs (wordOf b1 b2)
  | 0xD => .andAbs (wordOf b1 b2)
  | 0xE => .rolAbs (wordOf b1 b2)
  | _ => .und op

/-- Row 3x of the matrix: the instruction in column `lo` of opcode `op`. -/
def matrixRow3 (lo : Nat) (op b1 b2 : Byte) : Instr :=
  match lo with
  | 0x0 => .bmiRel b1
  | 0x1 => .andIzy b1
  | 0x5 => .andZpx b1
  | 0x6 => .rolZpx b1
  | 0x8 => .sec
  | 0x9 => .andAby (wordOf b1 b2)
  | 0xD => .andAbx (wordOf b1 b2)
  | 0xE => .rolAbx (wordOf b1 b2)
  | _ => .und op

/-- Row 4x of the matrix: the instruction in column `lo` of opcode `op`. -/
def matrixRow4 (lo : Nat) (op b1 b2 : Byte) : Instr :=
  match lo with
  | 0x0 => .rti
  | 0x1 => .eorIzx b1
  | 0x5 => .eorZp b1
  | 0x6 => .lsrZp b1
  | 0x8 => .pha
  | 0x9 => .eorImm b1
  | 0xA => .lsrAcc
  | 0xC => .jmpAbs (wordOf b1 b2)
  | 0xD => .eorAbs (wordOf b1 b2)
  | 0xE => .lsrAbs (wordOf b1 b2)
  | _ => .und op

/-- Row 5x of the matrix: the instruction in column `lo` of opcode `op`. -/
def matrixRow5 (lo : Nat) (op b1 b2 : Byte) : Instr :=
  match lo with
  | 0x0 => .bvcRel b1
  | 0x1 => .eorIzy b1
  | 0x5 => .eorZpx b1
  | 0x6 => .lsrZpx b1
  | 0x8 => .cli
  | 0x9 => .eorAby (wordOf b1 b2)
  | 0xD => .eorAbx (wordOf b1 b2)
  | 0xE => .lsrAbx (wordOf b1 b2)
  | _ => .und op

/-- Row 6x of the matrix: the instruction in column `lo` of opcode `op`. -/
def matrixRow6 (lo : Nat) (op b1 b2 : Byte) : Instr :=
  match lo with
  | 0x0 => .rts
  | 0x1 => .adcIzx b1
  | 0x5 => .adcZp b1
  | 0x6 => .rorZp b1
  | 0x8 => .pla
  | 0x9 => .adcImm b1
  | 0xA => .rorAcc
  | 0xC => .jmpInd (wordOf b1 b2)
  | 0xD => .adcAbs (wordOf b1 b2)
  | 0xE => .rorAbs (wordOf b1 b2)
  | _ => .und op

/-- Row 7x of the matrix: the instruction in column `lo` of opcode `op`. -/
def matrixRow7 (lo : Nat) (op b1 b2 : Byte) : Instr :=
  match lo with
  | 0x0 => .bvsRel b1
  | 0x1 => .adcIzy b1
  | 0x5 => .adcZpx b1
  | 0x6 => .rorZpx b1
  | 0x8 => .sei
  | 0x9 => .adcAby (wordOf b1 b2)
  | 0xD => .adcAbx (wordOf b1 b2)
  | 0xE => .rorAbx (wordOf b1 b2)
  | _ => .und op

/-- Row 8x of the matrix: the instruction in column `lo` of opcode `op`. -/
def matrixRow8 (lo : Nat) (op b1 b2 : Byte) : Instr :=
  match lo with
  | 0x1 => .staIzx b1
  | 0x4 => .styZp b1
  | 0x5 => .staZp b1
  | 0x6 => .stxZp b1
  | 0x8 => .dey
  | 0xA => .txa
  | 0xC => .styAbs (wordOf b1 b2)
  | 0xD => .staAbs (wordOf b1 b2)
  | 0xE => .stxAbs (wordOf b1 b2)
  | _ => .und op

/-- Row 9x of the matrix: the instruction in column `lo` of opcode `op`. -/
def matrixRow9 (lo : Nat) (op b1 b2 : Byte) : Instr :=
  match lo with
  | 0x0 => .bccRel b1
  | 0x1 => .staIzy b1
  | 0x4 => .styZpx b1
  | 0x5 => .staZpx b1
  | 0x6 => .stxZpy b1
  | 0x8 => .tya
  | 0x9 => .staAby (wordOf b1 b2)
  | 0xA => .txs
  | 0xD => .staAbx (wordOf b1 b2)
  | _ => .und op

/-- Row Ax of the matrix: the instruction in column `lo` of opcode `op`. -/
def matrixRowA (lo : Nat) (op b1 b2 : Byte) : Instr :=
  match lo with
  | 0x0 => .ldyImm b1
  | 0x1 => .ldaIzx b1
  | 0x2 => .ldxImm b1
  | 0x4 => .ldyZp b1
  | 0x5 => .ldaZp b1
  | 0x6 => .ldxZp b1
  | 0x8 => .tay
  | 0x9 => .ldaImm b1
  | 0xA => .tax
  | 0xC => .ldyAbs (wordOf b1 b2)
  | 0xD => .ldaAbs (wordOf b1 b2)
  | 0xE => .ldxAbs (wordOf b1 b2)
  | _ => .und op

/-- Row Bx of the matrix: the instruction in column `lo` of opcode `op`. -/
def matrixRowB (lo : Nat) (op b1 b2 : Byte) : Instr :=
  match lo with
  | 0x0 => .bcsRel b1
  | 0x1 => .ldaIzy b1
  | 0x4 => .ldyZpx b1
  | 0x5 => .ldaZpx b1
  | 0x6 => .ldxZpy b1
  | 0x8 => .clv
  | 0x9 => .ldaAby (wordOf b1 b2)
  | 0xA => .tsx
  | 0xC => .ldyAbx (wordOf b1 b2)
  | 0xD => .ldaAbx (wordOf b1 b2)
  | 0xE => .ldxAby (wordOf b1 b2)
  | _ => .und op

/-- Row Cx of the matrix: the instruction in column `lo` of opcode `op`. -/
def matrixRowC (lo : Nat) (op b1 b2 : Byte) : Instr :=
  match lo with
  | 0x0 => .cpyImm b1
  | 0x1 => .cmpIzx b1
  | 0x4 => .cpyZp b1
  | 0x5 => .cmpZp b1
  | 0x6 => .decZp b1
  | 0x8 => .iny
  | 0x9 => .cmpImm b1
  | 0xA => .dex
  | 0xC => .cpyAbs (wordOf b1 b2)
  | 0xD => .cmpAbs (wordOf b1 b2)
  | 0xE => .decAbs (wordOf b1 b2)
  | _ => .und op

/-- Row Dx of the matrix: the instruction in column `lo` of opcode `op`. -/
def matrixRowD (lo : Nat) (op b1 b2 : Byte) : Instr :=
  match lo with
  | 0x0 => .bneRel b1
  | 0x1 => .cmpIzy b1
  | 0x5 => .cmpZpx b1
  | 0x6 => .decZpx b1
  | 0x8 => .cld
  | 0x9 => .cmpAby (wordOf b1 b2)
  | 0xD => .cmpAbx (wordOf b1 b2)
  | 0xE => .decAbx (wordOf b1 b2)
  | _ => .und op

/-- Row Ex of the matrix: the instruction in column `lo` of opcode `op`. -/
def matrixRowE (lo : Nat) (op b1 b2 : Byte) : Instr :=
  match lo with
  | 0x0 => .cpxImm b1
  | 0x1 => .sbcIzx b1
  | 0x4 => .cpxZp b1
  | 0x5 => .sbcZp b1
  | 0x6 => .incZp b1
  | 0x8 => .inx
  | 0x9 => .sbcImm b1
  | 0xA => .nop
  | 0xC => .cpxAbs (wordOf b1 b2)
  | 0xD => .sbcAbs (wordOf b1 b2)
  | 0xE => .incAbs (wordOf b1 b2)
  | _ => .und op

/-- Row Fx of the matrix: the instruction in column `lo` of opcode `op`. -/
def matrixRowF (lo : Nat) (op b1 b2 : Byte) : Instr :=
  match lo with
  | 0x0 => .beqRel b1
  | 0x1 => .sbcIzy b1
  | 0x5 => .sbcZpx b1
  | 0x6 => .incZpx b1
  | 0x8 => .sed
  | 0x9 => .sbcAby (wordOf b1 b2)
  | 0xD => .sbcAbx (wordOf b1 b2)
  | 0xE => .incAbx (wordOf b1 b2)
  | _ => .und op

/-- The instruction whose opcode byte is `op` and whose operand bytes are `b1`, `b2`, so far as it has them:
the opcode matrix R124, rows by the high nibble, columns by the low one. Every byte that is not a documented opcode is
`und` (R128, R241). -/
def decodeBytes (op b1 b2 : Byte) : Instr :=
  match op.toNat / 16 with
  | 0x0 => matrixRow0 (op.toNat % 16) op b1 b2
  | 0x1 => matrixRow1 (op.toNat % 16) op b1 b2
  | 0x2 => matrixRow2 (op.toNat % 16) op b1 b2
  | 0x3 => matrixRow3 (op.toNat % 16) op b1 b2
  | 0x4 => matrixRow4 (op.toNat % 16) op b1 b2
  | 0x5 => matrixRow5 (op.toNat % 16) op b1 b2
  | 0x6 => matrixRow6 (op.toNat % 16) op b1 b2
  | 0x7 => matrixRow7 (op.toNat % 16) op b1 b2
  | 0x8 => matrixRow8 (op.toNat % 16) op b1 b2
  | 0x9 => matrixRow9 (op.toNat % 16) op b1 b2
  | 0xA => matrixRowA (op.toNat % 16) op b1 b2
  | 0xB => matrixRowB (op.toNat % 16) op b1 b2
  | 0xC => matrixRowC (op.toNat % 16) op b1 b2
  | 0xD => matrixRowD (op.toNat % 16) op b1 b2
  | 0xE => matrixRowE (op.toNat % 16) op b1 b2
  | _ => matrixRowF (op.toNat % 16) op b1 b2

/-- The length of the instruction that begins with opcode byte `op` (R120). -/
def instrLength (op : Byte) : Nat := (decodeBytes op 0 0).length

/-- Why a list of bytes is no instruction: it ends too early. No opcode byte and no operand byte is
refused (R129, R130). -/
inductive DecodeError where
  /-- There is no opcode byte. -/
  | noOpcode
  /-- The opcode byte needs more operand bytes than follow it. -/
  | truncated (op : Byte)
deriving DecidableEq, Repr

/-- Decode the instruction at the head of a list of bytes; the rest of the list comes with it. -/
def decode : List Byte → Except DecodeError (Instr × List Byte)
  | [] => .error .noOpcode
  | op :: rest =>
    if instrLength op = 1 then .ok (decodeBytes op 0 0, rest)
    else match rest with
      | [] => .error (.truncated op)
      | b1 :: rest1 =>
        if instrLength op = 2 then .ok (decodeBytes op b1 0, rest1)
        else match rest1 with
          | [] => .error (.truncated op)
          | b2 :: rest2 => .ok (decodeBytes op b1 b2, rest2)

/-- The bytes of an instruction, first byte at the lowest address (R121, R124). -/
def encode : Instr → List Byte
  | .ldaImm b => [0xA9, b]
  | .ldaZp z => [0xA5, z]
  | .ldaZpx z => [0xB5, z]
  | .ldaAbs a => [0xAD, loByte a, hiByte a]
  | .ldaAbx a => [0xBD, loByte a, hiByte a]
  | .ldaAby a => [0xB9, loByte a, hiByte a]
  | .ldaIzx z => [0xA1, z]
  | .ldaIzy z => [0xB1, z]
  | .ldxImm b => [0xA2, b]
  | .ldxZp z => [0xA6, z]
  | .ldxZpy z => [0xB6, z]
  | .ldxAbs a => [0xAE, loByte a, hiByte a]
  | .ldxAby a => [0xBE, loByte a, hiByte a]
  | .ldyImm b => [0xA0, b]
  | .ldyZp z => [0xA4, z]
  | .ldyZpx z => [0xB4, z]
  | .ldyAbs a => [0xAC, loByte a, hiByte a]
  | .ldyAbx a => [0xBC, loByte a, hiByte a]
  | .staZp z => [0x85, z]
  | .staZpx z => [0x95, z]
  | .staAbs a => [0x8D, loByte a, hiByte a]
  | .staAbx a => [0x9D, loByte a, hiByte a]
  | .staAby a => [0x99, loByte a, hiByte a]
  | .staIzx z => [0x81, z]
  | .staIzy z => [0x91, z]
  | .stxZp z => [0x86, z]
  | .stxZpy z => [0x96, z]
  | .stxAbs a => [0x8E, loByte a, hiByte a]
  | .styZp z => [0x84, z]
  | .styZpx z => [0x94, z]
  | .styAbs a => [0x8C, loByte a, hiByte a]
  | .tax => [0xAA]
  | .tay => [0xA8]
  | .txa => [0x8A]
  | .tya => [0x98]
  | .tsx => [0xBA]
  | .txs => [0x9A]
  | .pha => [0x48]
  | .php => [0x08]
  | .pla => [0x68]
  | .plp => [0x28]
  | .adcImm b => [0x69, b]
  | .adcZp z => [0x65, z]
  | .adcZpx z => [0x75, z]
  | .adcAbs a => [0x6D, loByte a, hiByte a]
  | .adcAbx a => [0x7D, loByte a, hiByte a]
  | .adcAby a => [0x79, loByte a, hiByte a]
  | .adcIzx z => [0x61, z]
  | .adcIzy z => [0x71, z]
  | .sbcImm b => [0xE9, b]
  | .sbcZp z => [0xE5, z]
  | .sbcZpx z => [0xF5, z]
  | .sbcAbs a => [0xED, loByte a, hiByte a]
  | .sbcAbx a => [0xFD, loByte a, hiByte a]
  | .sbcAby a => [0xF9, loByte a, hiByte a]
  | .sbcIzx z => [0xE1, z]
  | .sbcIzy z => [0xF1, z]
  | .andImm b => [0x29, b]
  | .andZp z => [0x25, z]
  | .andZpx z => [0x35, z]
  | .andAbs a => [0x2D, loByte a, hiByte a]
  | .andAbx a => [0x3D, loByte a, hiByte a]
  | .andAby a => [0x39, loByte a, hiByte a]
  | .andIzx z => [0x21, z]
  | .andIzy z => [0x31, z]
  | .oraImm b => [0x09, b]
  | .oraZp z => [0x05, z]
  | .oraZpx z => [0x15, z]
  | .oraAbs a => [0x0D, loByte a, hiByte a]
  | .oraAbx a => [0x1D, loByte a, hiByte a]
  | .oraAby a => [0x19, loByte a, hiByte a]
  | .oraIzx z => [0x01, z]
  | .oraIzy z => [0x11, z]
  | .eorImm b => [0x49, b]
  | .eorZp z => [0x45, z]
  | .eorZpx z => [0x55, z]
  | .eorAbs a => [0x4D, loByte a, hiByte a]
  | .eorAbx a => [0x5D, loByte a, hiByte a]
  | .eorAby a => [0x59, loByte a, hiByte a]
  | .eorIzx z => [0x41, z]
  | .eorIzy z => [0x51, z]
  | .bitZp z => [0x24, z]
  | .bitAbs a => [0x2C, loByte a, hiByte a]
  | .cmpImm b => [0xC9, b]
  | .cmpZp z => [0xC5, z]
  | .cmpZpx z => [0xD5, z]
  | .cmpAbs a => [0xCD, loByte a, hiByte a]
  | .cmpAbx a => [0xDD, loByte a, hiByte a]
  | .cmpAby a => [0xD9, loByte a, hiByte a]
  | .cmpIzx z => [0xC1, z]
  | .cmpIzy z => [0xD1, z]
  | .cpxImm b => [0xE0, b]
  | .cpxZp z => [0xE4, z]
  | .cpxAbs a => [0xEC, loByte a, hiByte a]
  | .cpyImm b => [0xC0, b]
  | .cpyZp z => [0xC4, z]
  | .cpyAbs a => [0xCC, loByte a, hiByte a]
  | .incZp z => [0xE6, z]
  | .incZpx z => [0xF6, z]
  | .incAbs a => [0xEE, loByte a, hiByte a]
  | .incAbx a => [0xFE, loByte a, hiByte a]
  | .decZp z => [0xC6, z]
  | .decZpx z => [0xD6, z]
  | .decAbs a => [0xCE, loByte a, hiByte a]
  | .decAbx a => [0xDE, loByte a, hiByte a]
  | .inx => [0xE8]
  | .iny => [0xC8]
  | .dex => [0xCA]
  | .dey => [0x88]
  | .aslAcc => [0x0A]
  | .aslZp z => [0x06, z]
  | .aslZpx z => [0x16, z]
  | .aslAbs a => [0x0E, loByte a, hiByte a]
  | .aslAbx a => [0x1E, loByte a, hiByte a]
  | .lsrAcc => [0x4A]
  | .lsrZp z => [0x46, z]
  | .lsrZpx z => [0x56, z]
  | .lsrAbs a => [0x4E, loByte a, hiByte a]
  | .lsrAbx a => [0x5E, loByte a, hiByte a]
  | .rolAcc => [0x2A]
  | .rolZp z => [0x26, z]
  | .rolZpx z => [0x36, z]
  | .rolAbs a => [0x2E, loByte a, hiByte a]
  | .rolAbx a => [0x3E, loByte a, hiByte a]
  | .rorAcc => [0x6A]
  | .rorZp z => [0x66, z]
  | .rorZpx z => [0x76, z]
  | .rorAbs a => [0x6E, loByte a, hiByte a]
  | .rorAbx a => [0x7E, loByte a, hiByte a]
  | .jmpAbs a => [0x4C, loByte a, hiByte a]
  | .jmpInd p => [0x6C, loByte p, hiByte p]
  | .jsrAbs a => [0x20, loByte a, hiByte a]
  | .rts => [0x60]
  | .rti => [0x40]
  | .brk => [0x00]
  | .bccRel d => [0x90, d]
  | .bcsRel d => [0xB0, d]
  | .beqRel d => [0xF0, d]
  | .bneRel d => [0xD0, d]
  | .bmiRel d => [0x30, d]
  | .bplRel d => [0x10, d]
  | .bvcRel d => [0x50, d]
  | .bvsRel d => [0x70, d]
  | .clc => [0x18]
  | .sec => [0x38]
  | .cli => [0x58]
  | .sei => [0x78]
  | .cld => [0xD8]
  | .sed => [0xF8]
  | .clv => [0xB8]
  | .nop => [0xEA]
  | .und op => [op]

/-- Byte `k` of an instruction whose bits are `w`, bit 0 the least significant bit of the first byte, when
only `nbits` of them are given and every later bit is 0. -/
def tableByte (nbits w k : Nat) : Byte := BitVec.ofNat 8 ((w % 2 ^ nbits) / 2 ^ (8 * k))

/-- The longest instruction's bytes, laid out as the hardware stores them: byte 0 at the lowest address. -/
def tableBytes (nbits w : Nat) : List Byte := [tableByte nbits w 0, tableByte nbits w 1, tableByte nbits w 2]

/-- What the decoder reads from an instruction whose bits are `w`. -/
def decodeTableWord (nbits w : Nat) : Option Instr :=
  match decode (tableBytes nbits w) with
  | .ok (i, _) => some i
  | .error _ => none

end Sys2Proof
end

