-- ==== Sys2Proof/Machine/Bits.lean ====
section
/-! DEFINITION. Machine/Bits.lean: bit fields and the widenings of 00_scope.md R7. -/

namespace Sys2Proof.Machine

/-- `v[hi:lo]` with `hi = lo + len - 1`. -/
def field {n : Nat} (v : BitVec n) (lo len : Nat) : BitVec len := v.extractLsb' lo len

/-- `v[lo+len-1 : lo] <- f`: the other bits keep their value. -/
def putField {n : Nat} (v : BitVec n) (lo len : Nat) (f : BitVec len) : BitVec n :=
  (v &&& ~~~((BitVec.allOnes len).setWidth n <<< lo)) ||| (f.setWidth n <<< lo)

/-- `zext_16` (00_scope.md R7). -/
def zext16 (b : Byte) : Word := b.setWidth 16

/-- `sext_16` (00_scope.md R7). -/
def sext16 (b : Byte) : Word := b.signExtend 16

/-- `PageCross(a, b)` is `a[15:8] != b[15:8]` (00_scope.md R11). -/
def pageCross (a b : Word) : Bool := field a 8 8 != field b 8 8

/-- Bytes high and low as a word, `(hi << 8) | lo`. -/
def word (hi lo : Byte) : Word := hi ++ lo

end Sys2Proof.Machine
end

