-- ==== Sys2Proof/Config.lean ====
section
/-! DEFINITION. Config.lean: what is fixed for the life of one machine (10_state.md R57): the parameters of
00_scope.md R6 marked OPEN, the cartridge record of 47_mapper.md R350, and the external interrupt input of
60_exceptions.md R404. A `Config` value is carried in `State.cfg`, where no step changes it, so that every
statement about all states is a statement about all configurations (DESIGN CHOICE, log entry 3; safe). -/

namespace Sys2Proof

/-- The OPEN parameters of 00_scope.md R6. Their defaults are `Machine.defaultParams`; what values they may take
is log entry 14 (DESIGN CHOICE; unsafe for a value no machine has). -/
structure Params where
  /-- `CYCLES_PER_FRAME`: machine cycles in a frame step (D2). -/
  cyclesPerFrame : Nat
  /-- `UNDEF_CYCLES`: cycles of an undefined opcode (D4). -/
  undefCycles : Nat
  /-- `CPU_HZ`: the CPU clock, used by the audio frequencies only (D34). -/
  cpuHz : Nat
  /-- `QF_PERIOD`: CPU cycles per frame-sequencer step (D36). -/
  qfPeriod : Nat
  /-- `W_PULSE`, `W_TRI`, `W_NOISE`: mixer weights (D42). -/
  wPulse : Rat
  wTri : Rat
  wNoise : Rat
  /-- `FILTER_NEW_FIRST`: the first coefficient of each filter pair weighs the new value (D43). -/
  filterNewFirst : Bool
deriving DecidableEq, Repr

/-- The four mappers (47_mapper.md R352): 0 fixed mapping, 1 shift-register bank select, 2 PRG switching,
3 CHR switching. Any other identifier is refused at construction and has no constructor here. -/
inductive MapperId where
  | m0 | m1 | m2 | m3
deriving DecidableEq, Repr

/-- Nametable mirroring (10_state.md R32). -/
inductive Mirroring where
  | horizontal | vertical | singleLow | singleHigh | fourScreen
deriving DecidableEq, Repr

/-- The cartridge record (47_mapper.md R350). `prg` and `chr` list the ROM bytes that are not 0. -/
structure Cart where
  mapperId : MapperId
  prgBanks : Nat
  chrBanks : Nat
  mirroring : Mirroring
  hasPrgRam : Bool
  prg : Memory 8
  chr : Memory 8
deriving DecidableEq, Repr

/-- Everything fixed for one machine. `irqIn` is the set of machine cycles, counted from power-on or the
last reset() with the first cycle 1, at which the external IRQ input is asserted (60_exceptions.md R404);
a finite list, since any finite run looks at finitely many cycles (DESIGN CHOICE, log entry 4; safe). -/
structure Config where
  params : Params
  cart : Cart
  irqIn : List Nat
deriving DecidableEq, Repr

end Sys2Proof
end

