-- ==== Sys2Proof/Machine/Constants.lean ====
section
/-! DEFINITION. Machine/Constants.lean: the numbers the hardware fixes (00_scope.md R6), the defaults of its
OPEN parameters, and the two audio tables. -/

namespace Sys2Proof.Machine

/-- The defaults of the OPEN parameters (00_scope.md R6): the values shown there. 1/4 is written as a reduced
fraction. -/
def defaultParams : Params where
  cyclesPerFrame := 29781
  undefCycles := 2
  cpuHz := 1789773
  qfPeriod := 7457
  wPulse := ⟨1, 4, by decide, by decide⟩
  wTri := ⟨1, 4, by decide, by decide⟩
  wNoise := ⟨1, 4, by decide, by decide⟩
  filterNewFirst := true

/-- Scanlines per frame and dots per scanline (00_scope.md R6, 45_ppu.md R260). -/
def scanlinesPerFrame : Nat := 262
def dotsPerScanline : Nat := 341

/-- Framebuffer width and height (70_reset_and_hazards.md R462). -/
def screenWidth : Nat := 256
def screenHeight : Nat := 240

/-- Sprites per scanline (00_scope.md R6). -/
def spritesPerLine : Nat := 8

/-- The four kinds of RAM, OAM, palette and framebuffer sizes in cells (00_scope.md R6, 10_state.md R52). -/
def ramSize : Nat := 2048
def vramSize : Nat := 4096
def paletteSize : Nat := 32
def oamSize : Nat := 256
def prgRamSize : Nat := 8192
def chrRamSize : Nat := 8192
def fbSize : Nat := screenWidth * screenHeight

/-- One PRG bank, one CHR bank (47_mapper.md R350). -/
def prgBankSize : Nat := 16384
def chrBankSize : Nat := 8192

/-- `SAMPLE_RATE`, `SAMPLES_PER_FRAME` = floor(44100 / 60), `BUFFER_CAP`, `PULSE_FALLBACK_HZ`
(00_scope.md R6). -/
def sampleRate : Nat := 44100
def samplesPerFrame : Nat := 735
def bufferCap : Nat := 44100
def pulseFallbackHz : Nat := 440

/-- The base count of an OAM DMA stall (20_memory.md R93) and the cost of interrupt entry (R141). -/
def dmaBaseStall : Nat := 513
def interruptCycles : Nat := 7

/-- The three vectors (20_memory.md R119). -/
def nmiVector : Word := 0xFFFA
def resetVector : Word := 0xFFFC
def irqVector : Word := 0xFFFE

/-- `LengthTable` (46_apu.md R328). -/
def lengthTable : List Byte :=
  [10, 254, 20, 2, 40, 4, 80, 6, 160, 8, 60, 10, 14, 12, 26, 14] ++
  [12, 16, 24, 18, 48, 20, 96, 22, 192, 24, 72, 26, 16, 28, 32, 30]

/-- The length counter's load value for a 5-bit index. -/
def lengthOf (i : BitVec 5) : Byte := lengthTable.getD i.toNat 0

/-- `NoisePeriod` (46_apu.md R329), in CPU cycles per LFSR clock. -/
def noisePeriodTable : List Nat :=
  [4, 8, 16, 32, 64, 96, 128, 160, 202, 254, 380, 508, 762, 1016, 2034, 4068]

/-- The noise period for a 4-bit index. -/
def noisePeriodOf (i : BitVec 4) : Nat := noisePeriodTable.getD i.toNat 1

/-- `DutyRatio` = [1/8, 1/4, 1/2, 3/4] (46_apu.md R331). -/
def dutyRatio (d : BitVec 2) : Rat :=
  match d.toNat with
  | 0 => 1 / 8
  | 1 => 1 / 4
  | 2 => 1 / 2
  | _ => 3 / 4

end Sys2Proof.Machine
end

