-- ==== Sys2Proof/Machine/State.lean ====
section
/-! DEFINITION. Machine/State.lean: everything the spec gives the machine (10_state.md R20 to R57), as plain
data, the reasons a step can stop, and the state after reset. Each field names the rule that gives it. -/

namespace Sys2Proof.Machine

/-- The six status flags (10_state.md R23). Bits 4 and 5 of a status byte are not state. -/
structure Flags where
  c : Bool
  z : Bool
  i : Bool
  d : Bool
  v : Bool
  n : Bool
deriving DecidableEq, Repr

/-- The CPU: registers (R20 to R23), interrupt latches (R24), hidden state (R25). -/
structure Cpu where
  a : Byte
  x : Byte
  y : Byte
  sp : Byte
  pc : Word
  flags : Flags
  pendNMI : Bool
  pendIRQ : Bool
  /-- Idle ticks still owed by the instruction, interrupt entry or DMA in progress. -/
  wait : Nat
  /-- CPU ticks since power-on or reset(). -/
  cyc : Nat
  /-- Extra ticks a bus write has asked for during the current instruction. -/
  dmaStall : Nat
deriving DecidableEq, Repr

/-- The controller ports' shift registers and the shared strobe bit (10_state.md R28). -/
structure Pads where
  shift0 : Byte
  shift1 : Byte
  strobe : Bool
deriving DecidableEq, Repr

/-- The picture unit (10_state.md R33 to R42). Counters are Nat; their ranges are part of `Inv` (DESIGN CHOICE, log
entry 16; safe). -/
structure Ppu where
  scanline : Nat
  dot : Nat
  oam : Memory 8
  oamaddr : Byte
  ctrl : Byte
  mask : Byte
  v : BitVec 15
  t : BitVec 15
  x : BitVec 3
  w : Bool
  vblank : Bool
  spr0hit : Bool
  overflow : Bool
  readBuf : Byte
  sprCur : List Nat
  sprNext : List Nat
  /-- `fb[y][x]` is the cell at index 256 y + x. -/
  fb : Memory 6
deriving DecidableEq, Repr

/-- One pulse channel (10_state.md R44). -/
structure Pulse where
  enabled : Bool
  duty : BitVec 2
  halt : Bool
  constVol : Bool
  volume : BitVec 4
  swEnable : Bool
  swPeriod : BitVec 3
  swNegate : Bool
  swShift : BitVec 3
  swReload : Bool
  swDiv : BitVec 3
  period : BitVec 11
  freq : Rat
  length : Byte
  phase : Rat
deriving DecidableEq, Repr

/-- The triangle channel (10_state.md R45). -/
structure Tri where
  enabled : Bool
  control : Bool
  linReload : BitVec 7
  linear : BitVec 7
  linFlag : Bool
  period : BitVec 11
  freq : Rat
  length : Byte
  phase : Rat
deriving DecidableEq, Repr

/-- The noise channel (10_state.md R46). -/
structure Noise where
  enabled : Bool
  halt : Bool
  constVol : Bool
  volume : BitVec 4
  mode : Bool
  periodIdx : BitVec 4
  freq : Rat
  length : Byte
  lfsr : BitVec 15
  acc : Rat
deriving DecidableEq, Repr

/-- The delta-modulation placeholder (10_state.md R47). -/
structure Dmc where
  enabled : Bool
  reg0 : Byte
  reg1 : Byte
  reg2 : Byte
  reg3 : Byte
deriving DecidableEq, Repr

/-- The audio unit (10_state.md R44 to R49). -/
structure Apu where
  pulse0 : Pulse
  pulse1 : Pulse
  tri : Tri
  noise : Noise
  dmc : Dmc
  seqCount : Nat
  seqStep : Nat
  seqMode : Bool
  irqInhibit : Bool
  samples : List Rat
  yPrev : Rat
  master : Rat
  audioEnabled : Bool
deriving DecidableEq, Repr

/-- The mapper registers (10_state.md R53): the first eight are mapper 1's, `prgSel` mapper 2's, `chrSel`
mapper 3's. A register of a mapper the cartridge does not have keeps its power-on value (DESIGN CHOICE, log
entry 10; safe). -/
structure MapperRegs where
  sr : BitVec 5
  srCount : Nat
  mirror : Mirroring
  prgMode : BitVec 2
  chrMode : Bool
  chrBank0 : BitVec 5
  chrBank1 : BitVec 5
  prgBank : BitVec 5
  prgSel : Byte
  chrSel : Byte
deriving DecidableEq, Repr

/-- The live state: everything of R20 to R53 that the snapshot holds (R55, 70_reset_and_hazards.md R459). -/
structure Live where
  cpu : Cpu
  /-- Work RAM, 2048 bytes (R27). -/
  ram : Memory 8
  pads : Pads
  /-- Nametable RAM, 4096 bytes (R30). -/
  vram : Memory 8
  /-- Palette, 32 bytes (R31). -/
  palette : Memory 8
  ppu : Ppu
  apu : Apu
  /-- Cartridge RAM (R52): present when `Cart.hasPrgRam`, when `Cart.chrBanks` = 0. -/
  prgRam : Memory 8
  chrRam : Memory 8
  mapper : MapperRegs
deriving DecidableEq, Repr

/-- The machine: the live state, the host's button bytes (R28), the configuration (R57), the host's snapshot
(R55), the progress of the frame step, and two marks of the model's own that no program and no unit reads. -/
structure State extends Live where
  buttons0 : Byte
  buttons1 : Byte
  cfg : Config
  snap : Live
  /-- THE MODEL'S OWN (DESIGN CHOICE, log entry 9; safe): how many machine cycles of the frame step in progress have run;
  0 between frame steps (70_reset_and_hazards.md R452, R455, R457). No program and no unit reads it. -/
  frameCycle : Nat
  /-- THE MODEL'S OWN (DESIGN CHOICE, log entry 5; safe): an undefined opcode has executed; the sticky mark `undSeen` of
  93_implementation_defined.md U1, outside the architectural state and outside the snapshot. -/
  undSeen : Bool
  /-- THE MODEL'S OWN (DESIGN CHOICE, log entry 6; safe): how many `FrameReady` events have been emitted (45_ppu.md
  R287). -/
  framesReady : Nat
deriving DecidableEq, Repr

/-- The faults of the machine: there are none. "The machine has no synchronous fault" (60_exceptions.md
R400), every bus access is total (20_memory.md R84, R96), and no state is stuck (R420). -/
inductive Fault
deriving DecidableEq, Repr

/-- The refusals of the model. -/
inductive Refusal where
  /-- Raised by an arm of `exec` whose instruction has no meaning yet (safe). No arm raises it now. -/
  | notModelled (mnemonic : String)
  /-- Raised by the host operation `construct` on a cartridge record that fails 47_mapper.md R352: "the core
  refuses to construct a usable machine" (safe). No step raises it. -/
  | badCartridge
  /-- Raised by every operation of the host on a machine in the middle of a frame step (93_implementation_defined.md
  U13, 70_reset_and_hazards.md R455: "between frame steps only"; safe). No step raises it. -/
  | midFrameStep
deriving DecidableEq, Repr

/-! ## The state after reset -/

/-- Flags after power-on and reset(): I = 1, the other five 0 (R23). -/
def resetFlags : Flags := { c := false, z := false, i := true, d := false, v := false, n := false }

/-- The CPU after power-on and reset(), its program counter primed with `pc` (R20 to R25, R456). -/
def resetCpu (pc : Word) : Cpu :=
  { a := 0, x := 0, y := 0, sp := 0xFD, pc := pc, flags := resetFlags, pendNMI := false, pendIRQ := false,
    wait := 0, cyc := 0, dmaStall := 0 }

/-- The picture unit after power-on and reset() (R33 to R42, R456). -/
def resetPpu : Ppu :=
  { scanline := 0, dot := 0, oam := [], oamaddr := 0, ctrl := 0, mask := 0, v := 0, t := 0, x := 0, w := false,
    vblank := false, spr0hit := false, overflow := false, readBuf := 0, sprCur := [], sprNext := [], fb := [] }

/-- A pulse channel after power-on and reset(): every field 0 (R44). -/
def resetPulse : Pulse :=
  { enabled := false, duty := 0, halt := false, constVol := false, volume := 0, swEnable := false, swPeriod := 0,
    swNegate := false, swShift := 0, swReload := false, swDiv := 0, period := 0, freq := 0, length := 0, phase := 0 }

/-- The triangle channel after power-on and reset(): every field 0 (R45). -/
def resetTri : Tri :=
  { enabled := false, control := false, linReload := 0, linear := 0, linFlag := false, period := 0, freq := 0,
    length := 0, phase := 0 }

/-- The noise channel after power-on and reset(): `lfsr` = 1, every other field 0 (R46). -/
def resetNoise : Noise :=
  { enabled := false, halt := false, constVol := false, volume := 0, mode := false, periodIdx := 0, freq := 0,
    length := 0, lfsr := 1, acc := 0 }

/-- The delta-modulation placeholder after power-on and reset(): every field 0 (R47). -/
def resetDmc : Dmc := { enabled := false, reg0 := 0, reg1 := 0, reg2 := 0, reg3 := 0 }

/-- The audio unit after reset(), which keeps `master` and `audioEnabled` (R49, R456). -/
def resetApu (master : Rat) (audioEnabled : Bool) : Apu :=
  { pulse0 := resetPulse, pulse1 := resetPulse, tri := resetTri, noise := resetNoise, dmc := resetDmc,
    seqCount := 0, seqStep := 0, seqMode := false, irqInhibit := false, samples := [], yPrev := 0,
    master := master, audioEnabled := audioEnabled }

/-- The mapper registers at power-on (R53): PRG mode 3, the header's mirroring, every other register 0. -/
def powerOnMapper (cart : Cart) : MapperRegs :=
  { sr := 0, srCount := 0, mirror := cart.mirroring, prgMode := 3, chrMode := false, chrBank0 := 0, chrBank1 := 0,
    prgBank := 0, prgSel := 0, chrSel := 0 }

/-- The live state at power-on with program counter `pc`: every memory 0, `master` = 1, `audioEnabled` = 1
(R56, 70_reset_and_hazards.md R461). -/
def powerOnLive (cart : Cart) (pc : Word) : Live :=
  { cpu := resetCpu pc, ram := [], pads := { shift0 := 0, shift1 := 0, strobe := false }, vram := [], palette := [],
    ppu := resetPpu, apu := resetApu 1 true, prgRam := [], chrRam := [], mapper := powerOnMapper cart }

/-- The power-on state with program counter `pc`; the snapshot is a copy of the live state (R461). -/
def State.powerOn (cfg : Config) (pc : Word) : State :=
  { toLive := powerOnLive cfg.cart pc, buttons0 := 0, buttons1 := 0, cfg := cfg, snap := powerOnLive cfg.cart pc,
    frameCycle := 0, undSeen := false, framesReady := 0 }

/-- A cartridge with no program: mapper 0, one PRG bank, 8 KB of CHR RAM, no PRG RAM, horizontal mirroring,
every ROM byte 0 (DESIGN CHOICE, log entry 1; unsafe). -/
def blankCart : Cart :=
  { mapperId := .m0, prgBanks := 1, chrBanks := 0, mirroring := .horizontal, hasPrgRam := false, prg := [], chr := [] }

/-- The configuration of the reset state: default parameters, the blank cartridge, no external interrupt. -/
def blankConfig : Config := { params := defaultParams, cart := blankCart, irqIn := [] }

/-- The machine right after power-on, every field at the value of 10_state.md R56, with the blank cartridge.
Its program counter is the word at 0xFFFC of that cartridge, 0 (`Laws.construct_blank`). -/
def State.reset : State := State.powerOn blankConfig 0

end Sys2Proof.Machine
end

