-- ==== Sys2Proof/Machine/Apu.lean ====
section
/-! DEFINITION. Machine/Apu.lean: the audio unit (46_apu.md): register writes, the status read, the frame
sequencer, and the synthesis of one frame's samples in exact rationals (00_scope.md R12). -/

namespace Sys2Proof.Machine

/-- `frac(q)` = q - floor(q) (00_scope.md R12). -/
def frac (q : Rat) : Rat := q - (q.floor : Rat)

/-- `clamp(q, lo, hi)` (00_scope.md R12). -/
def clamp (q lo hi : Rat) : Rat := if q < lo then lo else if hi < q then hi else q

/-! ## Frequencies (R319) -/

/-- The frequency of a pulse channel whose period field was last changed to `period`: the fallback for 0. -/
def pulseFreq (p : Params) (period : BitVec 11) : Rat :=
  if period = 0 then (pulseFallbackHz : Rat) else (p.cpuHz : Rat) / (16 * ((period.toNat : Rat) + 1))

/-- The frequency of the triangle channel. -/
def triFreq (p : Params) (period : BitVec 11) : Rat := (p.cpuHz : Rat) / (32 * ((period.toNat : Rat) + 1))

/-- The frequency of the noise channel (R316). -/
def noiseFreq (p : Params) (i : BitVec 4) : Rat := (p.cpuHz : Rat) / (noisePeriodOf i : Rat)

/-- Set a pulse channel's period and derive its frequency (`UpdatePulseFreq`, R319). -/
def setPulsePeriod (p : Params) (period : BitVec 11) (ch : Pulse) : Pulse :=
  { ch with period := period, freq := pulseFreq p period }

/-- Set the triangle's period and derive its frequency (`UpdateTriFreq`, R319). -/
def setTriPeriod (p : Params) (period : BitVec 11) (ch : Tri) : Tri :=
  { ch with period := period, freq := triFreq p period }

/-! ## Register writes (R302 to R321) -/

/-- Pulse register 0 (R302, R306). -/
def pulseWrite0 (d : Byte) (ch : Pulse) : Pulse :=
  { ch with duty := field d 6 2, halt := d.getLsbD 5, constVol := d.getLsbD 4, volume := field d 0 4 }

/-- Pulse register 1, the sweep (R303, R307). -/
def pulseWrite1 (d : Byte) (ch : Pulse) : Pulse :=
  { ch with
    swEnable := d.getLsbD 7, swPeriod := field d 4 3, swNegate := d.getLsbD 3, swShift := field d 0 3,
    swReload := true }

/-- Pulse register 2, period low (R304, R308). -/
def pulseWrite2 (p : Params) (d : Byte) (ch : Pulse) : Pulse := setPulsePeriod p (putField ch.period 0 8 d) ch

/-- Pulse register 3, period high and length (R305, R309): enables the channel; the phase is kept. -/
def pulseWrite3 (p : Params) (d : Byte) (ch : Pulse) : Pulse :=
  { setPulsePeriod p (putField ch.period 8 3 (field d 0 3)) ch with
    enabled := true, length := lengthOf (field d 3 5) }

/-- Write 0x4008 (R310). -/
def triWrite0 (d : Byte) (ch : Tri) : Tri := { ch with control := d.getLsbD 7, linReload := field d 0 7 }

/-- Write 0x400A (R312). -/
def triWrite2 (p : Params) (d : Byte) (ch : Tri) : Tri := setTriPeriod p (putField ch.period 0 8 d) ch

/-- Write 0x400B (R313). -/
def triWrite3 (p : Params) (d : Byte) (ch : Tri) : Tri :=
  { setTriPeriod p (putField ch.period 8 3 (field d 0 3)) ch with
    enabled := true, length := lengthOf (field d 3 5), linFlag := true }

/-- Write 0x400C (R314). -/
def noiseWrite0 (d : Byte) (ch : Noise) : Noise :=
  { ch with halt := d.getLsbD 5, constVol := d.getLsbD 4, volume := field d 0 4 }

/-- Write 0x400E (R316). -/
def noiseWrite2 (p : Params) (d : Byte) (ch : Noise) : Noise :=
  { ch with mode := d.getLsbD 7, periodIdx := field d 0 4, freq := noiseFreq p (field d 0 4) }

/-- Write 0x400F (R317): the LFSR and the clock accumulator are kept. -/
def noiseWrite3 (d : Byte) (ch : Noise) : Noise := { ch with enabled := true, length := lengthOf (field d 3 5) }

/-- Enabling keeps a length, disabling zeroes it (R318). -/
def enableLength (on : Bool) (length : Byte) : Byte := if on then length else 0

/-- Write 0x4015 (R318). -/
def writeEnables (d : Byte) (u : Apu) : Apu :=
  { u with
    pulse0 := { u.pulse0 with enabled := d.getLsbD 0, length := enableLength (d.getLsbD 0) u.pulse0.length }
    pulse1 := { u.pulse1 with enabled := d.getLsbD 1, length := enableLength (d.getLsbD 1) u.pulse1.length }
    tri := { u.tri with enabled := d.getLsbD 2, length := enableLength (d.getLsbD 2) u.tri.length }
    noise := { u.noise with enabled := d.getLsbD 3, length := enableLength (d.getLsbD 3) u.noise.length }
    dmc := { u.dmc with enabled := d.getLsbD 4 } }

/-! ## The clocks of the frame sequencer (R325 to R327) -/

/-- `QuarterClock` (R325): the triangle's linear counter. -/
def quarterClock (u : Apu) : Apu :=
  let linear := if u.tri.linFlag then u.tri.linReload else if u.tri.linear = 0 then 0 else u.tri.linear - 1
  { u with tri := { u.tri with linear := linear, linFlag := u.tri.linFlag && u.tri.control } }

/-- A length counter's clock (R326). -/
def lengthClock (halt : Bool) (length : Byte) : Byte := if halt || length == 0 then length else length - 1

/-- `HalfClock`, first part (R326). -/
def clockLengths (u : Apu) : Apu :=
  { u with
    pulse0 := { u.pulse0 with length := lengthClock u.pulse0.halt u.pulse0.length }
    pulse1 := { u.pulse1 with length := lengthClock u.pulse1.halt u.pulse1.length }
    noise := { u.noise with length := lengthClock u.noise.halt u.noise.length }
    tri := { u.tri with length := lengthClock u.tri.control u.tri.length } }

/-- The sweep's target period, as an integer (R327); `extra` is 1 for `pulse[0]`, 0 for `pulse[1]`. -/
def sweepTarget (extra : Int) (ch : Pulse) : Int :=
  let delta : Int := (ch.period >>> ch.swShift.toNat).toNat
  if ch.swNegate then ch.period.toNat - delta - extra else ch.period.toNat + delta

/-- The sweep changes the period at this clock (R327). -/
def sweepActs (extra : Int) (ch : Pulse) : Bool :=
  ch.swDiv == 0 && ch.swEnable && !(ch.swShift == 0) && decide (8 ≤ ch.period.toNat) &&
    decide (0 ≤ sweepTarget extra ch) && decide (sweepTarget extra ch ≤ 0x7FF)

/-- `HalfClock`, second part, for one pulse channel (R327). -/
def sweepClock (p : Params) (extra : Int) (ch : Pulse) : Pulse :=
  let ch1 := if sweepActs extra ch then setPulsePeriod p (BitVec.ofInt 11 (sweepTarget extra ch)) ch else ch
  if ch.swDiv == 0 || ch.swReload then { ch1 with swDiv := ch.swPeriod, swReload := false }
  else { ch1 with swDiv := ch.swDiv - 1 }

/-- `HalfClock` (R326, then R327). -/
def halfClock (p : Params) (u : Apu) : Apu :=
  let u := clockLengths u
  { u with pulse0 := sweepClock p 1 u.pulse0, pulse1 := sweepClock p 0 u.pulse1 }

/-- Sequencer step `k` in mode `five` (R324). -/
def sequencerStep (p : Params) (five : Bool) (k : Nat) (u : Apu) : Apu :=
  match five, k with
  | false, 0 | false, 2 | true, 0 | true, 2 => quarterClock u
  | false, 1 | false, 3 | true, 1 | true, 4 => halfClock p (quarterClock u)
  | _, _ => u

/-- Write 0x4017 (R321). -/
def writeSequencer (p : Params) (d : Byte) (u : Apu) : Apu :=
  let u := { u with seqMode := d.getLsbD 7, irqInhibit := d.getLsbD 6, seqCount := 0, seqStep := 0 }
  if d.getLsbD 7 then halfClock p (quarterClock u) else u

/-- The number of sequencer steps in a mode (R323). -/
def seqLength (five : Bool) : Nat := if five then 5 else 4

/-- `ApuTick` (R323). -/
def apuTick (p : Params) (u : Apu) : Apu :=
  if u.seqCount + 1 = p.qfPeriod then
    let u1 := sequencerStep p u.seqMode u.seqStep { u with seqCount := 0 }
    { u1 with seqStep := (u.seqStep + 1) % seqLength u.seqMode }
  else { u with seqCount := u.seqCount + 1 }

/-- A CPU write of APU register 0x4000 + `k` (R301 to R321, 20_memory.md R87, R90). Registers 0x4009 and 0x400D
change nothing (R311, R315). -/
def apuWrite (p : Params) (k : BitVec 5) (d : Byte) (u : Apu) : Apu :=
  match k.toNat with
  | 0x00 => { u with pulse0 := pulseWrite0 d u.pulse0 }
  | 0x01 => { u with pulse0 := pulseWrite1 d u.pulse0 }
  | 0x02 => { u with pulse0 := pulseWrite2 p d u.pulse0 }
  | 0x03 => { u with pulse0 := pulseWrite3 p d u.pulse0 }
  | 0x04 => { u with pulse1 := pulseWrite0 d u.pulse1 }
  | 0x05 => { u with pulse1 := pulseWrite1 d u.pulse1 }
  | 0x06 => { u with pulse1 := pulseWrite2 p d u.pulse1 }
  | 0x07 => { u with pulse1 := pulseWrite3 p d u.pulse1 }
  | 0x08 => { u with tri := triWrite0 d u.tri }
  | 0x0A => { u with tri := triWrite2 p d u.tri }
  | 0x0B => { u with tri := triWrite3 p d u.tri }
  | 0x0C => { u with noise := noiseWrite0 d u.noise }
  | 0x0E => { u with noise := noiseWrite2 p d u.noise }
  | 0x0F => { u with noise := noiseWrite3 d u.noise }
  | 0x10 => { u with dmc := { u.dmc with reg0 := d } }
  | 0x11 => { u with dmc := { u.dmc with reg1 := d } }
  | 0x12 => { u with dmc := { u.dmc with reg2 := d } }
  | 0x13 => { u with dmc := { u.dmc with reg3 := d } }
  | 0x15 => writeEnables d u
  | 0x17 => writeSequencer p d u
  | _ => u

/-- Read 0x4015 (R322). -/
def apuStatus (u : Apu) : Byte :=
  0#4 ++ BitVec.ofBool (u.noise.length != 0) ++ BitVec.ofBool (u.tri.length != 0) ++
    BitVec.ofBool (u.pulse1.length != 0) ++ BitVec.ofBool (u.pulse0.length != 0)

/-! ## Synthesis (R330 to R337) -/

/-- Volume as a gain (R302, D35). -/
def gain (volume : BitVec 4) : Rat := (volume.toNat : Rat) / 15

/-- A pulse channel that contributes nothing (R331). -/
def Pulse.silent (ch : Pulse) : Bool := !ch.enabled || ch.freq == 0 || ch.volume == 0 || ch.length == 0

/-- `PulseSample(ch)` (R331): the sample and the channel after it. -/
def pulseSample (ch : Pulse) : Rat × Pulse :=
  if ch.silent then (0, ch)
  else ((if ch.phase < dutyRatio ch.duty then 1 else -1) * gain ch.volume,
        { ch with phase := frac (ch.phase + ch.freq / (sampleRate : Rat)) })

/-- The triangle contributes nothing (R332). -/
def Tri.silent (ch : Tri) : Bool := !ch.enabled || ch.freq == 0 || ch.length == 0 || ch.linear == 0

/-- `TriSample()` (R332). -/
def triSample (ch : Tri) : Rat × Tri :=
  if ch.silent then (0, ch)
  else (if ch.phase < 1 / 2 then 4 * ch.phase - 1 else 3 - 4 * ch.phase,
        { ch with phase := frac (ch.phase + ch.freq / (sampleRate : Rat)) })

/-- One clock of the noise channel's shift register (R333). -/
def lfsrClock (mode : Bool) (r : BitVec 15) : BitVec 15 :=
  let fb := r.getLsbD 0 ^^ (if mode then r.getLsbD 6 else r.getLsbD 1)
  (r >>> 1) ||| ((BitVec.ofBool fb).setWidth 15 <<< 14)

/-- `n` clocks of the shift register. -/
def lfsrClocks (mode : Bool) : Nat → BitVec 15 → BitVec 15
  | 0, r => r
  | n + 1, r => lfsrClocks mode n (lfsrClock mode r)

/-- The noise channel contributes nothing (R333). -/
def Noise.silent (ch : Noise) : Bool := !ch.enabled || ch.freq == 0 || ch.volume == 0 || ch.length == 0

/-- `NoiseSample()` (R333). The loop "while acc >= 1" takes 1 from `acc` floor(acc) times (DEDUCED, log entry
12; safe). -/
def noiseSample (ch : Noise) : Rat × Noise :=
  if ch.silent then (0, ch)
  else
    let acc := ch.acc + ch.freq / (sampleRate : Rat)
    ((if ch.lfsr.getLsbD 0 then -1 else 1) * gain ch.volume,
     { ch with lfsr := lfsrClocks ch.mode acc.floor.toNat ch.lfsr, acc := acc - (acc.floor.toNat : Rat) })

/-- `Mix` (R335); the delta-modulation channel's term is 0 (R334). -/
def mix (p : Params) (master p1 p2 t n : Rat) : Rat := master * (p.wPulse * (p1 + p2) + p.wTri * t + p.wNoise * n)

/-- One stage of the filter: the pair of coefficients `hi` + `lo` = 1, the first weighing the new value when
`newFirst` (R336, D43). -/
def filterStage (newFirst : Bool) (hi lo new old : Rat) : Rat :=
  if newFirst then hi * new + lo * old else lo * new + hi * old

/-- `Filter(m)` (R336): both stages use the same previous output; the result is clamped to [-1, 1]. -/
def filter (p : Params) (yPrev m : Rat) : Rat :=
  let s1 := filterStage p.filterNewFirst (4 / 5) (1 / 5) m yPrev
  let s2 := filterStage p.filterNewFirst (9 / 10) (1 / 10) s1 yPrev
  clamp s2 (-1) 1

/-- `Append(y)` (R337): at the cap the oldest sample is dropped. -/
def appendSample (y : Rat) (samples : List Rat) : List Rat :=
  if bufferCap < (samples ++ [y]).length then (samples ++ [y]).drop 1 else samples ++ [y]

/-- One sample tick of `generate_frame_audio` (R330). -/
def audioTick (p : Params) (u : Apu) : Apu :=
  let p1 := pulseSample u.pulse0
  let p2 := pulseSample u.pulse1
  let t := triSample u.tri
  let n := noiseSample u.noise
  let y := filter p u.yPrev (mix p u.master p1.1 p2.1 t.1 n.1)
  { u with pulse0 := p1.2, pulse1 := p2.2, tri := t.2, noise := n.2, yPrev := y, samples := appendSample y u.samples }

/-- `n` sample ticks. -/
def audioTicks (p : Params) : Nat → Apu → Apu
  | 0, u => u
  | n + 1, u => audioTicks p n (audioTick p u)

/-- `generate_frame_audio` (R330). -/
def generateFrameAudio (p : Params) (u : Apu) : Apu := audioTicks p samplesPerFrame u

end Sys2Proof.Machine
end

