-- ==== Sys2Proof/Machine/Controller.lean ====
section
/-! DEFINITION. Machine/Controller.lean: the controller ports (48_controller.md R380 to R384). -/

namespace Sys2Proof.Machine

/-- The strobe write to 0x4016 (R381): a 1-to-0 transition takes the snapshot of both button bytes. -/
def writeStrobe (d : Byte) (s : State) : State :=
  let strobe := d.getLsbD 0
  if s.pads.strobe && !strobe then
    { s with pads := { shift0 := s.buttons0, shift1 := s.buttons1, strobe := strobe } }
  else { s with pads := { s.pads with strobe := strobe } }

/-- A shift register after a read: shifted right, a 1 entering at the top (R382). -/
def padShift (r : Byte) : Byte := (r >>> 1) ||| 0x80

/-- The byte read: bit 6 is 1, bit 0 the button, the others 0 (R382). -/
def padByte (b : Bool) : Byte := 0x40 ||| (BitVec.ofBool b).setWidth 8

/-- Read of port 0 at 0x4016 (R382). -/
def readPad0 (s : State) : Byte × State :=
  if s.pads.strobe then (padByte (s.buttons0.getLsbD 0), s)
  else (padByte (s.pads.shift0.getLsbD 0), { s with pads := { s.pads with shift0 := padShift s.pads.shift0 } })

/-- Read of port 1 at 0x4017 (R382). -/
def readPad1 (s : State) : Byte × State :=
  if s.pads.strobe then (padByte (s.buttons1.getLsbD 0), s)
  else (padByte (s.pads.shift1.getLsbD 0), { s with pads := { s.pads with shift1 := padShift s.pads.shift1 } })

end Sys2Proof.Machine
end

