-- ==== Sys2Proof/Machine/Flags.lean ====
section
/-! DEFINITION. Machine/Flags.lean: the status byte (00_scope.md R8) and every flag computation of the
instruction rules (42_cpu_arith_logic.md). A computation takes the operands and the flags before it and gives
the result and the flags after it; a flag it does not name keeps its value. -/

namespace Sys2Proof.Machine

/-- `P(b)` = N V 1 b D I Z C, bit 7 down to bit 0 (R8). -/
def Flags.toByte (b : Bool) (f : Flags) : Byte :=
  BitVec.ofBool f.n ++ BitVec.ofBool f.v ++ 1#1 ++ BitVec.ofBool b ++ BitVec.ofBool f.d ++ BitVec.ofBool f.i ++
    BitVec.ofBool f.z ++ BitVec.ofBool f.c

/-- `SetP(v)`: bits 5 and 4 are ignored (R8). -/
def Flags.ofByte (p : Byte) : Flags :=
  { c := p.getLsbD 0, z := p.getLsbD 1, i := p.getLsbD 2, d := p.getLsbD 3, v := p.getLsbD 6, n := p.getLsbD 7 }

/-- `SetZN(r)` (R8). -/
def setZN (r : Byte) (f : Flags) : Flags := { f with z := r == 0, n := r.getLsbD 7 }

/-- The carry flag as a number. -/
def Flags.carry (f : Flags) : Nat := f.c.toNat

/-- ADC (R190). -/
def adc (a m : Byte) (f : Flags) : Byte × Flags :=
  let s := a.toNat + m.toNat + f.carry
  let r := BitVec.ofNat 8 s
  (r, setZN r { f with c := decide (0xFF < s), v := ((a ^^^ r) &&& (m ^^^ r) &&& 0x80) != 0 })

/-- SBC (R191): the addition of the operand's ones' complement. -/
def sbc (a m : Byte) (f : Flags) : Byte × Flags :=
  let n := m ^^^ 0xFF
  let s := a.toNat + n.toNat + f.carry
  let r := BitVec.ofNat 8 s
  (r, setZN r { f with c := decide (0xFF < s), v := ((a ^^^ r) &&& (n ^^^ r) &&& 0x80) != 0 })

/-- AND (R192). -/
def andOp (a m : Byte) (f : Flags) : Byte × Flags := (a &&& m, setZN (a &&& m) f)

/-- ORA (R193). -/
def oraOp (a m : Byte) (f : Flags) : Byte × Flags := (a ||| m, setZN (a ||| m) f)

/-- EOR (R194). -/
def eorOp (a m : Byte) (f : Flags) : Byte × Flags := (a ^^^ m, setZN (a ^^^ m) f)

/-- CMP, CPX, CPY (R195 to R197): `r` is the register. -/
def compareFlags (r m : Byte) (f : Flags) : Flags := setZN (r - m) { f with c := decide (m.toNat ≤ r.toNat) }

/-- BIT (R198). -/
def bitFlags (a m : Byte) (f : Flags) : Flags := { f with z := (a &&& m) == 0, n := m.getLsbD 7, v := m.getLsbD 6 }

/-- INC, INX, INY (R199, R201, R202). -/
def incOp (m : Byte) (f : Flags) : Byte × Flags := (m + 1, setZN (m + 1) f)

/-- DEC, DEX, DEY (R200, R203, R204). -/
def decOp (m : Byte) (f : Flags) : Byte × Flags := (m - 1, setZN (m - 1) f)

/-- ASL (R205). -/
def aslOp (m : Byte) (f : Flags) : Byte × Flags := (m <<< 1, setZN (m <<< 1) { f with c := m.getLsbD 7 })

/-- LSR (R206). -/
def lsrOp (m : Byte) (f : Flags) : Byte × Flags := (m >>> 1, setZN (m >>> 1) { f with c := m.getLsbD 0 })

/-- ROL (R207). -/
def rolOp (m : Byte) (f : Flags) : Byte × Flags :=
  let r := (m <<< 1) ||| (BitVec.ofBool f.c).setWidth 8
  (r, setZN r { f with c := m.getLsbD 7 })

/-- ROR (R208). -/
def rorOp (m : Byte) (f : Flags) : Byte × Flags :=
  let r := (m >>> 1) ||| ((BitVec.ofBool f.c).setWidth 8 <<< 7)
  (r, setZN r { f with c := m.getLsbD 0 })

end Sys2Proof.Machine
end

