-- ==== Sys2Proof/Machine/Memory.lean ====
section
/-! DEFINITION. Machine/Memory.lean: reading and writing one cell of a memory, and the canonical form that
every write keeps. -/

namespace Sys2Proof

/-- The cell at index `a`. An unlisted index reads 0, the power-on contents of every memory (10_state.md
R56: "all 0"). -/
def Memory.read {w : Nat} : Memory w → Nat → BitVec w
  | [], _ => 0
  | (k, b) :: m, a => if k = a then b else Memory.read m a

/-- Store `b` at index `a`: the list stays sorted, and a cell that becomes 0 is no longer listed. -/
def Memory.write {w : Nat} : Memory w → Nat → BitVec w → Memory w
  | [], a, b => if b = 0 then [] else [(a, b)]
  | (k, c) :: m, a, b =>
    if a < k then (if b = 0 then (k, c) :: m else (a, b) :: (k, c) :: m)
    else if a = k then (if b = 0 then m else (a, b) :: m)
    else (k, c) :: Memory.write m a b

/-- Every index in the list is at least `lo`, they rise strictly, and no listed cell is 0. -/
def Memory.sortedFrom {w : Nat} (lo : Nat) : Memory w → Bool
  | [] => true
  | (k, b) :: m => decide (lo ≤ k) && !(b == 0) && Memory.sortedFrom (k + 1) m

/-- The canonical form: indices strictly rising, no listed cell 0. Equal memories are equal lists. -/
def Memory.wf {w : Nat} (m : Memory w) : Bool := Memory.sortedFrom 0 m

/-- Every listed index is below `size`. -/
def Memory.within {w : Nat} (size : Nat) (m : Memory w) : Bool := m.all fun c => decide (c.1 < size)

/-- The memory that holds `bytes` from index `at_` on. -/
def Memory.ofBytes : Nat → List Byte → Memory 8
  | _, [] => []
  | at_, b :: bs => if b = 0 then Memory.ofBytes (at_ + 1) bs else (at_, b) :: Memory.ofBytes (at_ + 1) bs

end Sys2Proof
end

