-- ==== Sys2Proof/Machine/Mapper.lean ====
section
/-! DEFINITION. Machine/Mapper.lean: the four cartridge interface functions ReadPrg, WritePrg, ReadChr, WriteChr
(47_mapper.md R352 to R370). Each dispatches on `Cart.mapperId`; a read is a function of the cartridge, the
mapper registers and the address alone (R370). Differences from a window's base are written as masks (DEDUCED, log
entry 13; safe). -/

namespace Sys2Proof.Machine

/-- `a - 0x8000` for `a` in 0x8000 to 0xFFFF. -/
def romOffset (a : Word) : Nat := (a &&& 0x7FFF).toNat

/-- The offset of `a` in its 16 KB window: `a - 0x8000` below 0xC000, `a - 0xC000` from there on. -/
def bankOffset (a : Word) : Nat := (a &&& 0x3FFF).toNat

/-- `a - 0x6000` for `a` in 0x6000 to 0x7FFF. -/
def prgRamOffset (a : Word) : Nat := (a &&& 0x1FFF).toNat

/-- Byte `k` of PRG bank `b`, the bank number reduced modulo the number of banks (R350, D27). -/
def prgByte (cart : Cart) (b k : Nat) : Byte := cart.prg.read (prgBankSize * (b % cart.prgBanks) + k)

/-- Mappers 0 and 3 `ReadPrg` (R353, R359): `prg[(a - 0x8000) mod (16384 x prgBanks)]`. -/
def readPrgFixed (cart : Cart) (a : Word) : Byte :=
  cart.prg.read (romOffset a % (prgBankSize * cart.prgBanks))

/-- Mapper 2 `ReadPrg` (R356): the selected bank below 0xC000, the last bank from there on. -/
def readPrgSwitched (cart : Cart) (m : MapperRegs) (a : Word) : Byte :=
  if a < 0xC000 then prgByte cart m.prgSel.toNat (bankOffset a)
  else prgByte cart (cart.prgBanks - 1) (bankOffset a)

/-- Mapper 1, the 16 KB bank number of an address (R364). -/
def mmc1PrgBank (cart : Cart) (m : MapperRegs) (a : Word) : Nat :=
  let n := (field m.prgBank 0 4)
  match m.prgMode.toNat with
  | 0 | 1 => if a < 0xC000 then (n &&& 0xE).toNat else ((n &&& 0xE) ||| 1).toNat
  | 2 => if a < 0xC000 then 0 else n.toNat
  | _ => if a < 0xC000 then n.toNat else cart.prgBanks - 1

/-- Mapper 1 `ReadPrg` (R364). -/
def readPrgMmc1 (cart : Cart) (m : MapperRegs) (a : Word) : Byte :=
  prgByte cart (mmc1PrgBank cart m a) (bankOffset a)

/-- `ReadPrg(a)` of the active mapper, for `a` in 0x8000 to 0xFFFF (R352). -/
def readPrg (cart : Cart) (m : MapperRegs) (a : Word) : Byte :=
  match cart.mapperId with
  | .m0 | .m3 => readPrgFixed cart a
  | .m1 => readPrgMmc1 cart m a
  | .m2 => readPrgSwitched cart m a

/-- Mapper 1, `Commit(k, v)` (R362, R363): a full shift register reaches the register its address names. -/
def mmc1Commit (k : BitVec 2) (v : BitVec 5) (m : MapperRegs) : MapperRegs :=
  match k.toNat with
  | 0 =>
    { m with
      mirror := match (field v 0 2).toNat with
        | 0 => .singleLow
        | 1 => .singleHigh
        | 2 => .vertical
        | _ => .horizontal
      prgMode := field v 2 2
      chrMode := v.getLsbD 4 }
  | 1 => { m with chrBank0 := v }
  | 2 => { m with chrBank1 := v }
  | _ => { m with prgBank := v }

/-- Mapper 1 `WritePrg` (R361): bit 7 clears the shift register; otherwise bit 0 enters it, least significant
bit first, and the fifth write commits it to the register chosen by address bits 14-13. -/
def mmc1Write (a : Word) (d : Byte) (m : MapperRegs) : MapperRegs :=
  if d.getLsbD 7 then { m with sr := 0, srCount := 0, prgMode := 3 }
  else
    let sr := m.sr ||| ((BitVec.ofBool (d.getLsbD 0)).setWidth 5 <<< m.srCount)
    if m.srCount + 1 = 5 then { mmc1Commit (field a 13 2) sr m with sr := 0, srCount := 0 }
    else { m with sr := sr, srCount := m.srCount + 1 }

/-- `WritePrg(a, d)` of the active mapper, for `a` in 0x8000 to 0xFFFF (R354, R357, R361, R367). It writes
mapper registers and nothing else. -/
def writePrg (cart : Cart) (a : Word) (d : Byte) (m : MapperRegs) : MapperRegs :=
  match cart.mapperId with
  | .m0 => m
  | .m1 => mmc1Write a d m
  | .m2 => { m with prgSel := d }
  | .m3 => { m with chrSel := d }

/-- Mapper 1, the 4 KB pattern bank number of a picture address (R365). -/
def mmc1ChrBank (m : MapperRegs) (a : Nat) : Nat :=
  if m.chrMode then (if a < 0x1000 then m.chrBank0.toNat else m.chrBank1.toNat)
  else if a < 0x1000 then (m.chrBank0 &&& 0x1E).toNat else ((m.chrBank0 &&& 0x1E) ||| 1).toNat

/-- The index that `ReadChr(a)` and `WriteChr(a, d)` use, for `a` in 0x0000 to 0x1FFF: into `chrRam` when
`Cart.chrBanks` = 0, else into `Cart.chr` (R355, R358, R365, R368). -/
def chrIndex (cart : Cart) (m : MapperRegs) (a : Nat) : Nat :=
  match cart.mapperId with
  | .m0 | .m2 => a
  | .m1 =>
    let banks := if cart.chrBanks = 0 then 2 else 2 * cart.chrBanks
    4096 * (mmc1ChrBank m a % banks) + a % 4096
  | .m3 => if cart.chrBanks = 0 then a else chrBankSize * (m.chrSel.toNat % cart.chrBanks) + a

/-- `ReadChr(a)` of the active mapper. -/
def readChr (cart : Cart) (m : MapperRegs) (chrRam : Memory 8) (a : Nat) : Byte :=
  if cart.chrBanks = 0 then chrRam.read (chrIndex cart m a) else cart.chr.read (chrIndex cart m a)

/-- `WriteChr(a, d)` of the active mapper: CHR RAM stores, CHR ROM ignores (20_memory.md R105). -/
def writeChr (cart : Cart) (m : MapperRegs) (a : Nat) (d : Byte) (chrRam : Memory 8) : Memory 8 :=
  if cart.chrBanks = 0 then chrRam.write (chrIndex cart m a) d else chrRam

end Sys2Proof.Machine
end

