-- ==== Sys2Proof/Machine/PictureBus.lean ====
section
/-! DEFINITION. Machine/PictureBus.lean: the 14-bit picture bus (20_memory.md R100 to R108). -/

namespace Sys2Proof.Machine

/-- The current mirroring (10_state.md R32, 47_mapper.md R366): mapper 1's register, else the header's. -/
def State.mirroring (s : State) : Mirroring :=
  match s.cfg.cart.mapperId with
  | .m1 => s.mapper.mirror
  | .m0 | .m2 | .m3 => s.cfg.cart.mirroring

/-- The nametable page of logical nametable `n` (20_memory.md R103). -/
def ntPage (m : Mirroring) (n : Nat) : Nat :=
  match m with
  | .horizontal => n / 2
  | .vertical => n % 2
  | .singleLow => 0
  | .singleHigh => 1
  | .fourScreen => n

/-- `NtIndex(a)` for `a` in 0x2000 to 0x3EFF (R103): `(a - 0x2000) & 0x0FFF` is `a` modulo 0x1000. -/
def ntIndex (m : Mirroring) (a : Nat) : Nat :=
  let o := a % 0x1000
  ntPage m (o / 1024) * 1024 + o % 1024

/-- `PalIndex(a)` for `a` in 0x3F00 to 0x3FFF (R104): 0x10, 0x14, 0x18, 0x1C name the bytes 0, 4, 8, 12. -/
def palIndex (a : Nat) : Nat :=
  let p := a % 32
  if 16 ≤ p ∧ p % 4 = 0 then p - 16 else p

/-- `PpuRead(a)` (R100 to R104). No read of the picture bus has a side effect. -/
def ppuRead (s : State) (a : Word) : Byte :=
  let p := (a &&& 0x3FFF).toNat
  if p < 0x2000 then readChr s.cfg.cart s.mapper s.chrRam p
  else if p < 0x3F00 then s.vram.read (ntIndex s.mirroring p)
  else s.palette.read (palIndex p)

/-- `PpuWrite(a, v)` (R105 to R107). -/
def ppuWrite (a : Word) (d : Byte) (s : State) : State :=
  let p := (a &&& 0x3FFF).toNat
  if p < 0x2000 then { s with chrRam := writeChr s.cfg.cart s.mapper p d s.chrRam }
  else if p < 0x3F00 then { s with vram := s.vram.write (ntIndex s.mirroring p) d }
  else { s with palette := s.palette.write (palIndex p) d }

end Sys2Proof.Machine
end

