-- ==== Sys2Proof/Machine/Ppu.lean ====
section
/-! DEFINITION. Machine/Ppu.lean: the picture unit (45_ppu.md): its eight registers, the scroll address, the
pixel, sprite evaluation, and the dot. -/

namespace Sys2Proof.Machine

/-! ## Fields of PPUCTRL and PPUMASK (10_state.md R36, R37) -/

def Ppu.inc32 (p : Ppu) : Bool := p.ctrl.getLsbD 2
def Ppu.sprTable (p : Ppu) : Bool := p.ctrl.getLsbD 3
def Ppu.bgTable (p : Ppu) : Bool := p.ctrl.getLsbD 4
def Ppu.spr16 (p : Ppu) : Bool := p.ctrl.getLsbD 5
def Ppu.nmiEnable (p : Ppu) : Bool := p.ctrl.getLsbD 7
def Ppu.grey (p : Ppu) : Bool := p.mask.getLsbD 0
def Ppu.bgLeft (p : Ppu) : Bool := p.mask.getLsbD 1
def Ppu.sprLeft (p : Ppu) : Bool := p.mask.getLsbD 2
def Ppu.showBg (p : Ppu) : Bool := p.mask.getLsbD 3
def Ppu.showSpr (p : Ppu) : Bool := p.mask.getLsbD 4

/-- Rendering is enabled, `ren` (R265). -/
def Ppu.ren (p : Ppu) : Bool := p.showBg || p.showSpr

/-- Byte `k` of sprite `i` in OAM (10_state.md R34). -/
def Ppu.sprite (p : Ppu) (i k : Nat) : Byte := p.oam.read (4 * i + k)

/-! ## The scroll address v (R266 to R269) -/

/-- `IncCoarseX` (R266). -/
def incCoarseX (v : BitVec 15) : BitVec 15 :=
  if field v 0 5 = 31 then putField v 0 5 0 ^^^ 0x0400 else putField v 0 5 (field v 0 5 + 1)

/-- `IncY` (R267). -/
def incY (v : BitVec 15) : BitVec 15 :=
  if (field v 12 3).toNat < 7 then putField v 12 3 (field v 12 3 + 1)
  else
    let v := putField v 12 3 0
    if field v 5 5 = 29 then putField v 5 5 0 ^^^ 0x0800
    else if field v 5 5 = 31 then putField v 5 5 0
    else putField v 5 5 (field v 5 5 + 1)

/-- `CopyHoriz` (R268): coarse x and the horizontal nametable bit of `t`. -/
def copyHoriz (t v : BitVec 15) : BitVec 15 := putField (putField v 0 5 (field t 0 5)) 10 1 (field t 10 1)

/-- `CopyVert` (R269): coarse y, the vertical nametable bit and fine y of `t`. -/
def copyVert (t v : BitVec 15) : BitVec 15 :=
  putField (putField (putField v 5 5 (field t 5 5)) 11 1 (field t 11 1)) 12 3 (field t 12 3)

/-! ## The registers (R250 to R262) -/

/-- PPUDATA's increment of `v`: 1 or 32, modulo 0x8000 (R258, R259). -/
def Ppu.advanceV (p : Ppu) : Ppu := { p with v := p.v + (if p.inc32 then 32 else 1) }

/-- The picture address in `v`, its low 14 bits. -/
def Ppu.addr (p : Ppu) : Word := p.v.setWidth 16 &&& 0x3FFF

/-- Read PPUSTATUS (R256): the three flags in bits 7 to 5; then `vblank` and `w` become 0. -/
def readStatus (s : State) : Byte × State :=
  (BitVec.ofBool s.ppu.vblank ++ BitVec.ofBool s.ppu.spr0hit ++ BitVec.ofBool s.ppu.overflow ++ 0#5,
   { s with ppu := { s.ppu with vblank := false, w := false } })

/-- Read PPUDATA (R258). -/
def readData (s : State) : Byte × State :=
  let a := s.ppu.addr
  if a < 0x3F00 then
    (s.ppu.readBuf, { s with ppu := { s.ppu with readBuf := ppuRead s a }.advanceV })
  else
    (ppuRead s a, { s with ppu := { s.ppu with readBuf := ppuRead s (a - 0x1000) }.advanceV })

/-- A CPU read of PPU register `r` (20_memory.md R73, R74, 45_ppu.md R255, R256, R258, R262). -/
def ppuReadReg (r : BitVec 3) (s : State) : Byte × State :=
  match r.toNat with
  | 2 => readStatus s
  | 4 => (s.ppu.oam.read s.ppu.oamaddr.toNat, s)
  | 7 => readData s
  | _ => (0, s)

/-- Write PPUCTRL (R251): nothing but `ctrl` and the nametable bits of `t`. -/
def writeCtrl (d : Byte) (p : Ppu) : Ppu := { p with ctrl := d, t := putField p.t 10 2 (field d 0 2) }

/-- Write OAMDATA (R254). -/
def writeOamData (d : Byte) (p : Ppu) : Ppu :=
  { p with oam := p.oam.write p.oamaddr.toNat d, oamaddr := p.oamaddr + 1 }

/-- Write PPUSCROLL (R257). -/
def writeScroll (d : Byte) (p : Ppu) : Ppu :=
  if p.w then { p with t := putField (putField p.t 12 3 (field d 0 3)) 5 5 (field d 3 5), w := false }
  else { p with t := putField p.t 0 5 (field d 3 5), x := field d 0 3, w := true }

/-- Write PPUADDR (R261): the high byte first; the second write copies `t` to `v`. -/
def writeAddr (d : Byte) (p : Ppu) : Ppu :=
  if p.w then
    let t := putField p.t 0 8 d
    { p with t := t, v := t, w := false }
  else { p with t := putField (putField p.t 8 6 (field d 0 6)) 14 1 0, w := true }

/-- Write PPUDATA (R259). -/
def writeData (d : Byte) (s : State) : State :=
  let s := ppuWrite s.ppu.addr d s
  { s with ppu := s.ppu.advanceV }

/-- A CPU write of PPU register `r` (20_memory.md R86). PPUSTATUS is read-only (R262). -/
def ppuWriteReg (r : BitVec 3) (d : Byte) (s : State) : State :=
  match r.toNat with
  | 0 => { s with ppu := writeCtrl d s.ppu }
  | 1 => { s with ppu := { s.ppu with mask := d } }
  | 3 => { s with ppu := { s.ppu with oamaddr := d } }
  | 4 => { s with ppu := writeOamData d s.ppu }
  | 5 => { s with ppu := writeScroll d s.ppu }
  | 6 => { s with ppu := writeAddr d s.ppu }
  | 7 => writeData d s
  | _ => s

/-! ## The pixel (R278 to R284) -/

/-- The pattern value of column `k` (0 the leftmost) of a tile row with planes `lo` and `hi` (20_memory.md
R110). -/
def patternValue (lo hi : Byte) (k : Nat) : BitVec 2 :=
  BitVec.ofBool (hi.getLsbD (7 - k)) ++ BitVec.ofBool (lo.getLsbD (7 - k))

/-- A layer's pixel: pattern value and palette number. -/
structure BgPix where
  pv : BitVec 2
  pal : BitVec 2
deriving DecidableEq, Repr

/-- `BgPixel(c)` (R278). -/
def bgPixel (s : State) (c : Nat) : BgPix :=
  let p := s.ppu
  if !p.showBg || (decide (c < 8) && !p.bgLeft) then { pv := 0, pal := 0 }
  else
    let v := p.v.setWidth 16
    let nt := ppuRead s (0x2000 ||| (v &&& 0x0FFF))
    let at_ := ppuRead s (0x23C0 ||| (v &&& 0x0C00) ||| ((v >>> 4) &&& 0x38) ||| ((v >>> 2) &&& 0x07))
    let sh := (((v >>> 4) &&& 4) ||| (v &&& 2)).toNat
    let addr := ((BitVec.ofBool p.bgTable).setWidth 16 <<< 12) ||| (nt.setWidth 16 <<< 4) |||
      (field p.v 12 3).setWidth 16
    { pv := patternValue (ppuRead s addr) (ppuRead s (addr + 8)) ((p.x.toNat + c) % 8), pal := field at_ sh 2 }

/-- Sprite height in rows (R280, R285). -/
def Ppu.sprHeight (p : Ppu) : Nat := if p.spr16 then 16 else 8

/-- `SprRowAddr(i, s)` (R280): the pattern address of the row of sprite `i` on scanline `line`, or none when the
sprite is not on it. -/
def sprRowAddr (p : Ppu) (i line : Nat) : Option Word :=
  let top := (p.sprite i 0).toNat + 1
  if line < top ∨ top + p.sprHeight ≤ line then none
  else
    let row := if (p.sprite i 2).getLsbD 7 then p.sprHeight - 1 - (line - top) else line - top
    let tile := (p.sprite i 1).setWidth 16
    if p.spr16 then
      some (((tile &&& 1) <<< 12) + ((tile &&& 0xFE) <<< 4) + BitVec.ofNat 16 (if row < 8 then row else row + 8))
    else
      some (((BitVec.ofBool p.sprTable).setWidth 16 <<< 12) ||| (tile <<< 4) ||| BitVec.ofNat 16 row)

/-- The sprite layer's pixel: value, palette, behind the background, sprite 0. -/
structure SprPix where
  pv : BitVec 2
  pal : BitVec 2
  behind : Bool
  zero : Bool
deriving DecidableEq, Repr

/-- Sprite `i`'s pixel at column `c`, or none when it does not cover it or is transparent there (R279). -/
def spriteAt (s : State) (c i : Nat) : Option SprPix :=
  let p := s.ppu
  let left := (p.sprite i 3).toNat
  if c < left ∨ left + 7 < c then none
  else
    match sprRowAddr p i p.scanline with
    | none => none
    | some addr =>
      let attr := p.sprite i 2
      let off := if attr.getLsbD 6 then 7 - (c - left) else c - left
      let pv := patternValue (ppuRead s addr) (ppuRead s (addr + 8)) off
      if pv = 0 then none
      else some { pv := pv, pal := field attr 0 2, behind := attr.getLsbD 5, zero := i == 0 }

/-- The first sprite of the list with an opaque pixel at column `c` (R279). -/
def firstSprite (s : State) (c : Nat) : List Nat → Option SprPix
  | [] => none
  | i :: is =>
    match spriteAt s c i with
    | some px => some px
    | none => firstSprite s c is

/-- `SprPixel(c)` (R279). -/
def sprPixel (s : State) (c : Nat) : Option SprPix :=
  if !s.ppu.showSpr || (decide (c < 8) && !s.ppu.sprLeft) then none else firstSprite s c s.ppu.sprCur

/-- A palette address: base + 4 x palette + value. -/
def paletteAddr (base : Nat) (pal pv : BitVec 2) : Nat := base + 4 * pal.toNat + pv.toNat

/-- Composition (R281): the palette address of a pixel. -/
def compose (bg : BgPix) : Option SprPix → Nat
  | none => if bg.pv = 0 then 0x3F00 else paletteAddr 0x3F00 bg.pal bg.pv
  | some sp =>
    if bg.pv = 0 then paletteAddr 0x3F10 sp.pal sp.pv
    else if sp.behind then paletteAddr 0x3F00 bg.pal bg.pv
    else paletteAddr 0x3F10 sp.pal sp.pv

/-- Palette lookup (R283): a 6-bit colour index, masked with 0x30 under greyscale. -/
def colour (s : State) (pa : Nat) : BitVec 6 :=
  let col := (s.palette.read (palIndex pa)).setWidth 6
  if s.ppu.grey then col &&& 0x30 else col

/-- Sprite-0 hit (R282). -/
def sprite0Hits (bg : BgPix) (sp : Option SprPix) (c : Nat) : Bool :=
  match sp with
  | none => false
  | some px => px.zero && !(bg.pv == 0) && !(c == 255)

/-- The index of `fb[y][x]`. -/
def fbIndex (y x : Nat) : Nat := screenWidth * y + x

/-- Produce the pixel of column `c` (R278 to R284): the picture unit after it. -/
def drawPixel (c : Nat) (s : State) : Ppu :=
  let bg := bgPixel s c
  let sp := sprPixel s c
  { s.ppu with
    spr0hit := s.ppu.spr0hit || sprite0Hits bg sp c
    fb := s.ppu.fb.write (fbIndex s.ppu.scanline c) (colour s (compose bg sp)) }

/-- Coarse-x advance after the pixel of column `c` (R270). -/
def advanceCoarseX (c : Nat) (p : Ppu) : Ppu :=
  if (p.x.toNat + c) % 8 = 7 then { p with v := incCoarseX p.v } else p

/-! ## Sprite evaluation (R285) -/

/-- Sprite `i` is on scanline `n`. -/
def Ppu.onLine (p : Ppu) (n i : Nat) : Bool :=
  let top := (p.sprite i 0).toNat + 1
  decide (top ≤ n) && decide (n < top + p.sprHeight)

/-- Scan the sprites from the list of candidates in order: the first eight on scanline `n` are kept, a ninth
sets the flag (R285). -/
def evalSprites (p : Ppu) (n : Nat) : List Nat → List Nat × Bool → List Nat × Bool
  | [], acc => acc
  | i :: is, (found, ninth) =>
    if p.onLine n i then
      if found.length < spritesPerLine then evalSprites p n is (found ++ [i], ninth)
      else evalSprites p n is (found, true)
    else evalSprites p n is (found, ninth)

/-- Sprite evaluation for the scanline after the current one (R285). -/
def evaluate (p : Ppu) : Ppu :=
  let r := evalSprites p (p.scanline + 1) (List.range 64) ([], p.overflow)
  { p with sprNext := r.1, overflow := r.2 }

/-! ## The dot (R260, R264)

The events of a dot change the picture unit and, at one dot of the frame, the NMI latch; they read the picture bus. -/

/-- Events of dots 1 to 340 of a visible scanline (R264). -/
def visibleDot (s : State) : Ppu :=
  let p := s.ppu
  if 1 ≤ p.dot ∧ p.dot ≤ 256 then
    if p.ren then advanceCoarseX (p.dot - 1) (drawPixel (p.dot - 1) s) else p
  else if p.dot = 257 then
    if p.ren then evaluate { p with v := incY p.v } else { p with sprNext := [] }
  else if p.dot = 258 then
    if p.ren then { p with v := copyHoriz p.t p.v } else p
  else p

/-- Events of dots 1 to 340 of the pre-render scanline 261 (R264). -/
def preRenderDot (p : Ppu) : Ppu :=
  if p.dot = 1 then { p with vblank := false, spr0hit := false, overflow := false }
  else if p.dot = 257 then { p with sprNext := [] }
  else if p.dot = 258 then
    if p.ren then { p with v := copyHoriz p.t p.v } else p
  else if 280 ≤ p.dot ∧ p.dot ≤ 304 then
    if p.ren then { p with v := copyVert p.t p.v } else p
  else p

/-- The events of the current (scanline, dot), the table R264. -/
def dotEvents (s : State) : Ppu :=
  let p := s.ppu
  if p.dot = 0 then { p with sprCur := p.sprNext }
  else if p.scanline < screenHeight then visibleDot s
  else if p.scanline = 241 then (if p.dot = 1 then { p with vblank := true } else p)
  else if p.scanline = 261 then preRenderDot p
  else p

/-- The dot at which the NMI is latched: scanline 241 dot 1 with PPUCTRL bit 7 set (R276). It is the only place. -/
def raisesNmi (p : Ppu) : Bool := decide (p.scanline = 241) && decide (p.dot = 1) && p.nmiEnable

/-- Move to the next dot (R260). -/
def advanceDot (p : Ppu) : Ppu :=
  if p.dot + 1 = dotsPerScanline then
    { p with dot := 0, scanline := if p.scanline + 1 = scanlinesPerFrame then 0 else p.scanline + 1 }
  else { p with dot := p.dot + 1 }

/-- The dot whose end wraps from scanline 261 dot 340 to scanline 0 dot 0 and emits `FrameReady` (R260, R287). -/
def endsFrame (p : Ppu) : Bool :=
  decide (p.dot + 1 = dotsPerScanline) && decide (p.scanline + 1 = scanlinesPerFrame)

/-- `PpuTick` (R260). -/
def ppuTick (s : State) : State :=
  { s with
    ppu := advanceDot (dotEvents s)
    cpu := { s.cpu with pendNMI := s.cpu.pendNMI || raisesNmi s.ppu }
    framesReady := s.framesReady + (endsFrame s.ppu).toNat }

end Sys2Proof.Machine
end

