-- ==== Sys2Proof/Machine/Ops.lean ====
section
/-! DEFINITION. Machine/Ops.lean: the named operations over registers and memory: the CPU bus (20_memory.md R70 to
R96), OAM DMA (R93), the memory primitives of 00_scope.md R9, the end of an instruction (R140), and taking an
exception and returning from it (60_exceptions.md R410, R412). -/

namespace Sys2Proof.Machine

/-! ## Registers -/

def State.setA (v : Byte) (s : State) : State := { s with cpu := { s.cpu with a := v } }
def State.setX (v : Byte) (s : State) : State := { s with cpu := { s.cpu with x := v } }
def State.setY (v : Byte) (s : State) : State := { s with cpu := { s.cpu with y := v } }
def State.setSp (v : Byte) (s : State) : State := { s with cpu := { s.cpu with sp := v } }
def State.setPc (v : Word) (s : State) : State := { s with cpu := { s.cpu with pc := v } }
def State.setFlags (f : Flags) (s : State) : State := { s with cpu := { s.cpu with flags := f } }

/-- `SetZN(r)` on the state's flags. -/
def State.setZN (r : Byte) (s : State) : State := s.setFlags (Machine.setZN r s.cpu.flags)

/-- The end of an instruction or entry of `n` cycles (R140, its last two lines): `n - 1` idle ticks and any
DMA stall are owed. -/
def State.finish (n : Nat) (s : State) : State :=
  { s with cpu := { s.cpu with wait := n - 1 + s.cpu.dmaStall, dmaStall := 0 } }

/-! ## The CPU bus -/

/-- `CpuRead(a)`: the byte and the state after the read's side effect (20_memory.md R71 to R81). -/
def cpuRead (a : Word) (s : State) : Byte × State :=
  if a < 0x2000 then (s.ram.read (a &&& 0x07FF).toNat, s)
  else if a < 0x4000 then ppuReadReg (field a 0 3) s
  else if a = 0x4015 then (apuStatus s.apu, s)
  else if a = 0x4016 then readPad0 s
  else if a = 0x4017 then readPad1 s
  else if a < 0x6000 then (0, s)
  else if a < 0x8000 then (if s.cfg.cart.hasPrgRam then s.prgRam.read (prgRamOffset a) else 0, s)
  else (readPrg s.cfg.cart s.mapper a, s)

/-- Store `b` in OAM at index `k`. -/
def oamStore (k b : Byte) (s : State) : State := { s with ppu := { s.ppu with oam := s.ppu.oam.write k.toNat b } }

/-- Bytes `i` to 255 of an OAM DMA from page `page`; `n` are left (R93). -/
def dmaCopy (page : Byte) : Nat → Byte → State → State
  | 0, _, s => s
  | n + 1, i, s =>
    let (b, s1) := cpuRead (word page i) s
    dmaCopy page n (i + 1) (oamStore (s1.ppu.oamaddr + i) b s1)

/-- OAM DMA (R93): 256 copies, then 513 extra ticks, or 514 when the tick counter is odd. -/
def oamDma (page : Byte) (s : State) : State :=
  let s1 := dmaCopy page 256 0 s
  { s1 with cpu := { s1.cpu with dmaStall := s1.cpu.dmaStall + dmaBaseStall + s1.cpu.cyc % 2 } }

/-- `CpuWrite(a, v)` (20_memory.md R85 to R96). -/
def cpuWrite (a : Word) (v : Byte) (s : State) : State :=
  if a < 0x2000 then { s with ram := s.ram.write (a &&& 0x07FF).toNat v }
  else if a < 0x4000 then ppuWriteReg (field a 0 3) v s
  else if a = 0x4014 then oamDma v s
  else if a = 0x4016 then writeStrobe v s
  else if a < 0x4018 then { s with apu := apuWrite s.cfg.params (field a 0 5) v s.apu }
  else if a < 0x6000 then s
  else if a < 0x8000 then
    (if s.cfg.cart.hasPrgRam then { s with prgRam := s.prgRam.write (prgRamOffset a) v } else s)
  else { s with mapper := writePrg s.cfg.cart a v s.mapper }

/-- `Read16(a)`: low byte first (00_scope.md R9). -/
def read16 (a : Word) (s : State) : Word × State :=
  let (lo, s1) := cpuRead a s
  let (hi, s2) := cpuRead (a + 1) s1
  (word hi lo, s2)

/-- `Fetch()` (00_scope.md R9). -/
def fetch (s : State) : Byte × State :=
  let (b, s1) := cpuRead s.cpu.pc s
  (b, s1.setPc (s.cpu.pc + 1))

/-- The stack slot that `sp` names (10_state.md R21). -/
def stackAddr (sp : Byte) : Word := 0x0100 + zext16 sp

/-- `Push(v)`: write, then decrement (00_scope.md R9). -/
def push (v : Byte) (s : State) : State := (cpuWrite (stackAddr s.cpu.sp) v s).setSp (s.cpu.sp - 1)

/-- `Pull()`: increment, then read (00_scope.md R9). -/
def pull (s : State) : Byte × State := cpuRead (stackAddr (s.cpu.sp + 1)) (s.setSp (s.cpu.sp + 1))

/-! ## Exceptions -/

/-- The three kinds of interrupt (00_scope.md R10). -/
inductive IntKind where
  | nmi | irq | brk
deriving DecidableEq, Repr

/-- The vector of a kind (60_exceptions.md R401). -/
def IntKind.vector : IntKind → Word
  | .nmi => nmiVector
  | .irq | .brk => irqVector

/-- Bit 4 of the pushed status byte: 1 for BRK only (R401). -/
def IntKind.breakBit : IntKind → Bool
  | .brk => true
  | .nmi | .irq => false

/-- The entry sequence `Interrupt(k)` (R410): the return address is pushed high byte first, then the status byte
with the flags as they are before entry; I is set and PC loaded from the vector. -/
def interrupt (k : IntKind) (s : State) : State :=
  let s1 := push (field s.cpu.pc 8 8) s
  let s2 := push (field s.cpu.pc 0 8) s1
  let s3 := push (s.cpu.flags.toByte k.breakBit) s2
  let s4 := s3.setFlags { s.cpu.flags with i := true }
  let (pc, s5) := read16 k.vector s4
  s5.setPc pc

/-- Return from interrupt (43_cpu_control.md R219, 60_exceptions.md R412): the status byte is pulled into the six
flags, then PC, low byte first, without adjustment. -/
def returnFromInterrupt (s : State) : State :=
  let (p, s1) := pull s
  let s2 := s1.setFlags (Flags.ofByte p)
  let (lo, s3) := pull s2
  let (hi, s4) := pull s3
  s4.setPc (word hi lo)

end Sys2Proof.Machine
end

