-- ==== Sys2Proof/Machine/Operands.lean ====
section
/-! DEFINITION. Machine/Operands.lean: the addressing modes and the three access patterns
(40_cpu_step_addressing.md R144 to R158). Operand bytes are in the instruction; the fetches that brought them
there are `Cycle.fetchInstr`. -/

namespace Sys2Proof.Machine

/-- A pointer in page 0 (`Read16zp`, 00_scope.md R9): both bytes come from page 0. Page 0 is work RAM, whose
reads have no side effect (20_memory.md R72), so the state does not change (DEDUCED, log entry 11; safe). -/
def zpPointer (z : Byte) (s : State) : Word :=
  word (cpuRead (zext16 (z + 1)) s).1 (cpuRead (zext16 z) s).1

/-- The address before indexing by X or Y, for the modes whose sum can leave the page (R151, R152, R154). -/
def baseAddr : Addr → State → Word
  | .zp z, _ | .zpx z, _ | .zpy z, _ => zext16 z
  | .abs a, _ | .abx a, _ | .aby a, _ => a
  | .izx z, s => zpPointer (z + s.cpu.x) s
  | .izy z, s => zpPointer z s

/-- The effective address `ea` (R147 to R154). -/
def effAddr (m : Addr) (s : State) : Word :=
  match m with
  | .zp z => zext16 z
  | .zpx z => zext16 (z + s.cpu.x)
  | .zpy z => zext16 (z + s.cpu.y)
  | .abs a => a
  | .abx a => a + zext16 s.cpu.x
  | .aby a => a + zext16 s.cpu.y
  | .izx z => zpPointer (z + s.cpu.x) s
  | .izy z => zpPointer z s + zext16 s.cpu.y

/-- The page-cross flag `px` (R151, R152, R154): false for every other mode. -/
def crosses (m : Addr) (s : State) : Bool :=
  match m with
  | .abx _ | .aby _ | .izy _ => pageCross (baseAddr m s) (effAddr m s)
  | .zp _ | .zpx _ | .zpy _ | .abs _ | .izx _ => false

/-- The page-cross penalty of a read instruction (R158). -/
def pagePenalty (src : Source) (s : State) : Nat :=
  match src with
  | .imm _ => 0
  | .mem m => (crosses m s).toNat

/-- `m <- Operand()` (R157): the immediate byte, or one read of the effective address. -/
def operand (src : Source) (s : State) : Byte × State :=
  match src with
  | .imm b => (b, s)
  | .mem m => cpuRead (effAddr m s) s

/-- `StoreTo(v)` (R157): one write of the effective address, no read. -/
def storeTo (m : Addr) (v : Byte) (s : State) : State := cpuWrite (effAddr m s) v s

/-- The JMP indirect pointer (R156): the second byte comes from the same page as the first. Two ordinary
reads, low byte first. -/
def jmpPointer (p : Word) (s : State) : Word × State :=
  let (lo, s1) := cpuRead p s
  let (hi, s2) := cpuRead (word (field p 8 8) (field p 0 8 + 1)) s1
  (word hi lo, s2)

/-- The target of a branch (R155): the displacement is added to the address of the next instruction. -/
def branchTarget (d : Byte) (s : State) : Word := s.cpu.pc + sext16 d

end Sys2Proof.Machine
end

