-- ==== Sys2Proof/Machine/Arith.lean ====
section
/-! DEFINITION. Machine/Arith.lean: arithmetic, logic, compare, increment, decrement, shift and rotate
(42_cpu_arith_logic.md R190 to R209). Each definition is one row of 30_encoding.md R127: its operand form and its
base cycle count. The computations are those of Machine/Flags.lean. -/

namespace Sys2Proof.Machine

/-- An operation on the accumulator and the operand that writes the accumulator (R190 to R194). -/
def accOp (f : Byte → Byte → Flags → Byte × Flags) (src : Source) (n : Nat) (s : State) : State :=
  let (m, s1) := operand src s
  let (r, fl) := f s1.cpu.a m s1.cpu.flags
  ((s1.setA r).setFlags fl).finish (n + pagePenalty src s)

/-- An operation on the operand that writes flags only (R195 to R198). -/
def flagOp (f : Byte → Flags → Flags) (src : Source) (n : Nat) (s : State) : State :=
  let (m, s1) := operand src s
  (s1.setFlags (f m s1.cpu.flags)).finish (n + pagePenalty src s)

/-- A read-modify-write of memory: one read, then one write (R157). -/
def rmwMem (f : Byte → Flags → Byte × Flags) (m : Addr) (n : Nat) (s : State) : State :=
  let ea := effAddr m s
  let (v, s1) := cpuRead ea s
  let (r, fl) := f v s1.cpu.flags
  ((cpuWrite ea r s1).setFlags fl).finish n

/-- The same operation on a register: INX, INY, DEX, DEY and the accumulator forms (R145, R201 to R208). -/
def stepReg (f : Byte → Flags → Byte × Flags) (set : Byte → State → State) (v : Byte) (n : Nat) (s : State) : State :=
  let (r, fl) := f v s.cpu.flags
  ((set r s).setFlags fl).finish n

/-- ADC imm, opcode 0x69, cycles 2 (R190). -/
def execAdcImm (b : Byte) (s : State) : Host.Outcome State Fault Refusal := .next (accOp adc (.imm b) 2 s)

/-- ADC zp, opcode 0x65, cycles 3 (R190). -/
def execAdcZp (z : Byte) (s : State) : Host.Outcome State Fault Refusal := .next (accOp adc (.mem (.zp z)) 3 s)

/-- ADC zpx, opcode 0x75, cycles 4 (R190). -/
def execAdcZpx (z : Byte) (s : State) : Host.Outcome State Fault Refusal := .next (accOp adc (.mem (.zpx z)) 4 s)

/-- ADC abs, opcode 0x6D, cycles 4 (R190). -/
def execAdcAbs (a : Word) (s : State) : Host.Outcome State Fault Refusal := .next (accOp adc (.mem (.abs a)) 4 s)

/-- ADC abx, opcode 0x7D, cycles 4+p (R190). -/
def execAdcAbx (a : Word) (s : State) : Host.Outcome State Fault Refusal := .next (accOp adc (.mem (.abx a)) 4 s)

/-- ADC aby, opcode 0x79, cycles 4+p (R190). -/
def execAdcAby (a : Word) (s : State) : Host.Outcome State Fault Refusal := .next (accOp adc (.mem (.aby a)) 4 s)

/-- ADC izx, opcode 0x61, cycles 6 (R190). -/
def execAdcIzx (z : Byte) (s : State) : Host.Outcome State Fault Refusal := .next (accOp adc (.mem (.izx z)) 6 s)

/-- ADC izy, opcode 0x71, cycles 5+p (R190). -/
def execAdcIzy (z : Byte) (s : State) : Host.Outcome State Fault Refusal := .next (accOp adc (.mem (.izy z)) 5 s)

/-- SBC imm, opcode 0xE9, cycles 2 (R191). -/
def execSbcImm (b : Byte) (s : State) : Host.Outcome State Fault Refusal := .next (accOp sbc (.imm b) 2 s)

/-- SBC zp, opcode 0xE5, cycles 3 (R191). -/
def execSbcZp (z : Byte) (s : State) : Host.Outcome State Fault Refusal := .next (accOp sbc (.mem (.zp z)) 3 s)

/-- SBC zpx, opcode 0xF5, cycles 4 (R191). -/
def execSbcZpx (z : Byte) (s : State) : Host.Outcome State Fault Refusal := .next (accOp sbc (.mem (.zpx z)) 4 s)

/-- SBC abs, opcode 0xED, cycles 4 (R191). -/
def execSbcAbs (a : Word) (s : State) : Host.Outcome State Fault Refusal := .next (accOp sbc (.mem (.abs a)) 4 s)

/-- SBC abx, opcode 0xFD, cycles 4+p (R191). -/
def execSbcAbx (a : Word) (s : State) : Host.Outcome State Fault Refusal := .next (accOp sbc (.mem (.abx a)) 4 s)

/-- SBC aby, opcode 0xF9, cycles 4+p (R191). -/
def execSbcAby (a : Word) (s : State) : Host.Outcome State Fault Refusal := .next (accOp sbc (.mem (.aby a)) 4 s)

/-- SBC izx, opcode 0xE1, cycles 6 (R191). -/
def execSbcIzx (z : Byte) (s : State) : Host.Outcome State Fault Refusal := .next (accOp sbc (.mem (.izx z)) 6 s)

/-- SBC izy, opcode 0xF1, cycles 5+p (R191). -/
def execSbcIzy (z : Byte) (s : State) : Host.Outcome State Fault Refusal := .next (accOp sbc (.mem (.izy z)) 5 s)

/-- AND imm, opcode 0x29, cycles 2 (R192). -/
def execAndImm (b : Byte) (s : State) : Host.Outcome State Fault Refusal := .next (accOp andOp (.imm b) 2 s)

/-- AND zp, opcode 0x25, cycles 3 (R192). -/
def execAndZp (z : Byte) (s : State) : Host.Outcome State Fault Refusal := .next (accOp andOp (.mem (.zp z)) 3 s)

/-- AND zpx, opcode 0x35, cycles 4 (R192). -/
def execAndZpx (z : Byte) (s : State) : Host.Outcome State Fault Refusal := .next (accOp andOp (.mem (.zpx z)) 4 s)

/-- AND abs, opcode 0x2D, cycles 4 (R192). -/
def execAndAbs (a : Word) (s : State) : Host.Outcome State Fault Refusal := .next (accOp andOp (.mem (.abs a)) 4 s)

/-- AND abx, opcode 0x3D, cycles 4+p (R192). -/
def execAndAbx (a : Word) (s : State) : Host.Outcome State Fault Refusal := .next (accOp andOp (.mem (.abx a)) 4 s)

/-- AND aby, opcode 0x39, cycles 4+p (R192). -/
def execAndAby (a : Word) (s : State) : Host.Outcome State Fault Refusal := .next (accOp andOp (.mem (.aby a)) 4 s)

/-- AND izx, opcode 0x21, cycles 6 (R192). -/
def execAndIzx (z : Byte) (s : State) : Host.Outcome State Fault Refusal := .next (accOp andOp (.mem (.izx z)) 6 s)

/-- AND izy, opcode 0x31, cycles 5+p (R192). -/
def execAndIzy (z : Byte) (s : State) : Host.Outcome State Fault Refusal := .next (accOp andOp (.mem (.izy z)) 5 s)

/-- ORA imm, opcode 0x09, cycles 2 (R193). -/
def execOraImm (b : Byte) (s : State) : Host.Outcome State Fault Refusal := .next (accOp oraOp (.imm b) 2 s)

/-- ORA zp, opcode 0x05, cycles 3 (R193). -/
def execOraZp (z : Byte) (s : State) : Host.Outcome State Fault Refusal := .next (accOp oraOp (.mem (.zp z)) 3 s)

/-- ORA zpx, opcode 0x15, cycles 4 (R193). -/
def execOraZpx (z : Byte) (s : State) : Host.Outcome State Fault Refusal := .next (accOp oraOp (.mem (.zpx z)) 4 s)

/-- ORA abs, opcode 0x0D, cycles 4 (R193). -/
def execOraAbs (a : Word) (s : State) : Host.Outcome State Fault Refusal := .next (accOp oraOp (.mem (.abs a)) 4 s)

/-- ORA abx, opcode 0x1D, cycles 4+p (R193). -/
def execOraAbx (a : Word) (s : State) : Host.Outcome State Fault Refusal := .next (accOp oraOp (.mem (.abx a)) 4 s)

/-- ORA aby, opcode 0x19, cycles 4+p (R193). -/
def execOraAby (a : Word) (s : State) : Host.Outcome State Fault Refusal := .next (accOp oraOp (.mem (.aby a)) 4 s)

/-- ORA izx, opcode 0x01, cycles 6 (R193). -/
def execOraIzx (z : Byte) (s : State) : Host.Outcome State Fault Refusal := .next (accOp oraOp (.mem (.izx z)) 6 s)

/-- ORA izy, opcode 0x11, cycles 5+p (R193). -/
def execOraIzy (z : Byte) (s : State) : Host.Outcome State Fault Refusal := .next (accOp oraOp (.mem (.izy z)) 5 s)

/-- EOR imm, opcode 0x49, cycles 2 (R194). -/
def execEorImm (b : Byte) (s : State) : Host.Outcome State Fault Refusal := .next (accOp eorOp (.imm b) 2 s)

/-- EOR zp, opcode 0x45, cycles 3 (R194). -/
def execEorZp (z : Byte) (s : State) : Host.Outcome State Fault Refusal := .next (accOp eorOp (.mem (.zp z)) 3 s)

/-- EOR zpx, opcode 0x55, cycles 4 (R194). -/
def execEorZpx (z : Byte) (s : State) : Host.Outcome State Fault Refusal := .next (accOp eorOp (.mem (.zpx z)) 4 s)

/-- EOR abs, opcode 0x4D, cycles 4 (R194). -/
def execEorAbs (a : Word) (s : State) : Host.Outcome State Fault Refusal := .next (accOp eorOp (.mem (.abs a)) 4 s)

/-- EOR abx, opcode 0x5D, cycles 4+p (R194). -/
def execEorAbx (a : Word) (s : State) : Host.Outcome State Fault Refusal := .next (accOp eorOp (.mem (.abx a)) 4 s)

/-- EOR aby, opcode 0x59, cycles 4+p (R194). -/
def execEorAby (a : Word) (s : State) : Host.Outcome State Fault Refusal := .next (accOp eorOp (.mem (.aby a)) 4 s)

/-- EOR izx, opcode 0x41, cycles 6 (R194). -/
def execEorIzx (z : Byte) (s : State) : Host.Outcome State Fault Refusal := .next (accOp eorOp (.mem (.izx z)) 6 s)

/-- EOR izy, opcode 0x51, cycles 5+p (R194). -/
def execEorIzy (z : Byte) (s : State) : Host.Outcome State Fault Refusal := .next (accOp eorOp (.mem (.izy z)) 5 s)

/-- BIT zp, opcode 0x24, cycles 3 (R198). -/
def execBitZp (z : Byte) (s : State) : Host.Outcome State Fault Refusal := .next (flagOp (bitFlags s.cpu.a) (.mem (.zp z)) 3 s)

/-- BIT abs, opcode 0x2C, cycles 4 (R198). -/
def execBitAbs (a : Word) (s : State) : Host.Outcome State Fault Refusal := .next (flagOp (bitFlags s.cpu.a) (.mem (.abs a)) 4 s)

/-- CMP imm, opcode 0xC9, cycles 2 (R195). -/
def execCmpImm (b : Byte) (s : State) : Host.Outcome State Fault Refusal := .next (flagOp (compareFlags s.cpu.a) (.imm b) 2 s)

/-- CMP zp, opcode 0xC5, cycles 3 (R195). -/
def execCmpZp (z : Byte) (s : State) : Host.Outcome State Fault Refusal := .next (flagOp (compareFlags s.cpu.a) (.mem (.zp z)) 3 s)

/-- CMP zpx, opcode 0xD5, cycles 4 (R195). -/
def execCmpZpx (z : Byte) (s : State) : Host.Outcome State Fault Refusal := .next (flagOp (compareFlags s.cpu.a) (.mem (.zpx z)) 4 s)

/-- CMP abs, opcode 0xCD, cycles 4 (R195). -/
def execCmpAbs (a : Word) (s : State) : Host.Outcome State Fault Refusal := .next (flagOp (compareFlags s.cpu.a) (.mem (.abs a)) 4 s)

/-- CMP abx, opcode 0xDD, cycles 4+p (R195). -/
def execCmpAbx (a : Word) (s : State) : Host.Outcome State Fault Refusal := .next (flagOp (compareFlags s.cpu.a) (.mem (.abx a)) 4 s)

/-- CMP aby, opcode 0xD9, cycles 4+p (R195). -/
def execCmpAby (a : Word) (s : State) : Host.Outcome State Fault Refusal := .next (flagOp (compareFlags s.cpu.a) (.mem (.aby a)) 4 s)

/-- CMP izx, opcode 0xC1, cycles 6 (R195). -/
def execCmpIzx (z : Byte) (s : State) : Host.Outcome State Fault Refusal := .next (flagOp (compareFlags s.cpu.a) (.mem (.izx z)) 6 s)

/-- CMP izy, opcode 0xD1, cycles 5+p (R195). -/
def execCmpIzy (z : Byte) (s : State) : Host.Outcome State Fault Refusal := .next (flagOp (compareFlags s.cpu.a) (.mem (.izy z)) 5 s)

/-- CPX imm, opcode 0xE0, cycles 2 (R196). -/
def execCpxImm (b : Byte) (s : State) : Host.Outcome State Fault Refusal := .next (flagOp (compareFlags s.cpu.x) (.imm b) 2 s)

/-- CPX zp, opcode 0xE4, cycles 3 (R196). -/
def execCpxZp (z : Byte) (s : State) : Host.Outcome State Fault Refusal := .next (flagOp (compareFlags s.cpu.x) (.mem (.zp z)) 3 s)

/-- CPX abs, opcode 0xEC, cycles 4 (R196). -/
def execCpxAbs (a : Word) (s : State) : Host.Outcome State Fault Refusal := .next (flagOp (compareFlags s.cpu.x) (.mem (.abs a)) 4 s)

/-- CPY imm, opcode 0xC0, cycles 2 (R197). -/
def execCpyImm (b : Byte) (s : State) : Host.Outcome State Fault Refusal := .next (flagOp (compareFlags s.cpu.y) (.imm b) 2 s)

/-- CPY zp, opcode 0xC4, cycles 3 (R197). -/
def execCpyZp (z : Byte) (s : State) : Host.Outcome State Fault Refusal := .next (flagOp (compareFlags s.cpu.y) (.mem (.zp z)) 3 s)

/-- CPY abs, opcode 0xCC, cycles 4 (R197). -/
def execCpyAbs (a : Word) (s : State) : Host.Outcome State Fault Refusal := .next (flagOp (compareFlags s.cpu.y) (.mem (.abs a)) 4 s)

/-- INC zp, opcode 0xE6, cycles 5 (R199). -/
def execIncZp (z : Byte) (s : State) : Host.Outcome State Fault Refusal := .next (rmwMem incOp (.zp z) 5 s)

/-- INC zpx, opcode 0xF6, cycles 6 (R199). -/
def execIncZpx (z : Byte) (s : State) : Host.Outcome State Fault Refusal := .next (rmwMem incOp (.zpx z) 6 s)

/-- INC abs, opcode 0xEE, cycles 6 (R199). -/
def execIncAbs (a : Word) (s : State) : Host.Outcome State Fault Refusal := .next (rmwMem incOp (.abs a) 6 s)

/-- INC abx, opcode 0xFE, cycles 7 (R199). -/
def execIncAbx (a : Word) (s : State) : Host.Outcome State Fault Refusal := .next (rmwMem incOp (.abx a) 7 s)

/-- DEC zp, opcode 0xC6, cycles 5 (R200). -/
def execDecZp (z : Byte) (s : State) : Host.Outcome State Fault Refusal := .next (rmwMem decOp (.zp z) 5 s)

/-- DEC zpx, opcode 0xD6, cycles 6 (R200). -/
def execDecZpx (z : Byte) (s : State) : Host.Outcome State Fault Refusal := .next (rmwMem decOp (.zpx z) 6 s)

/-- DEC abs, opcode 0xCE, cycles 6 (R200). -/
def execDecAbs (a : Word) (s : State) : Host.Outcome State Fault Refusal := .next (rmwMem decOp (.abs a) 6 s)

/-- DEC abx, opcode 0xDE, cycles 7 (R200). -/
def execDecAbx (a : Word) (s : State) : Host.Outcome State Fault Refusal := .next (rmwMem decOp (.abx a) 7 s)

/-- INX imp, opcode 0xE8, cycles 2 (R201). -/
def execInx (s : State) : Host.Outcome State Fault Refusal := .next (stepReg incOp State.setX s.cpu.x 2 s)

/-- INY imp, opcode 0xC8, cycles 2 (R202). -/
def execIny (s : State) : Host.Outcome State Fault Refusal := .next (stepReg incOp State.setY s.cpu.y 2 s)

/-- DEX imp, opcode 0xCA, cycles 2 (R203). -/
def execDex (s : State) : Host.Outcome State Fault Refusal := .next (stepReg decOp State.setX s.cpu.x 2 s)

/-- DEY imp, opcode 0x88, cycles 2 (R204). -/
def execDey (s : State) : Host.Outcome State Fault Refusal := .next (stepReg decOp State.setY s.cpu.y 2 s)

/-- ASL acc, opcode 0x0A, cycles 2 (R205). -/
def execAslAcc (s : State) : Host.Outcome State Fault Refusal := .next (stepReg aslOp State.setA s.cpu.a 2 s)

/-- ASL zp, opcode 0x06, cycles 5 (R205). -/
def execAslZp (z : Byte) (s : State) : Host.Outcome State Fault Refusal := .next (rmwMem aslOp (.zp z) 5 s)

/-- ASL zpx, opcode 0x16, cycles 6 (R205). -/
def execAslZpx (z : Byte) (s : State) : Host.Outcome State Fault Refusal := .next (rmwMem aslOp (.zpx z) 6 s)

/-- ASL abs, opcode 0x0E, cycles 6 (R205). -/
def execAslAbs (a : Word) (s : State) : Host.Outcome State Fault Refusal := .next (rmwMem aslOp (.abs a) 6 s)

/-- ASL abx, opcode 0x1E, cycles 7 (R205). -/
def execAslAbx (a : Word) (s : State) : Host.Outcome State Fault Refusal := .next (rmwMem aslOp (.abx a) 7 s)

/-- LSR acc, opcode 0x4A, cycles 2 (R206). -/
def execLsrAcc (s : State) : Host.Outcome State Fault Refusal := .next (stepReg lsrOp State.setA s.cpu.a 2 s)

/-- LSR zp, opcode 0x46, cycles 5 (R206). -/
def execLsrZp (z : Byte) (s : State) : Host.Outcome State Fault Refusal := .next (rmwMem lsrOp (.zp z) 5 s)

/-- LSR zpx, opcode 0x56, cycles 6 (R206). -/
def execLsrZpx (z : Byte) (s : State) : Host.Outcome State Fault Refusal := .next (rmwMem lsrOp (.zpx z) 6 s)

/-- LSR abs, opcode 0x4E, cycles 6 (R206). -/
def execLsrAbs (a : Word) (s : State) : Host.Outcome State Fault Refusal := .next (rmwMem lsrOp (.abs a) 6 s)

/-- LSR abx, opcode 0x5E, cycles 7 (R206). -/
def execLsrAbx (a : Word) (s : State) : Host.Outcome State Fault Refusal := .next (rmwMem lsrOp (.abx a) 7 s)

/-- ROL acc, opcode 0x2A, cycles 2 (R207). -/
def execRolAcc (s : State) : Host.Outcome State Fault Refusal := .next (stepReg rolOp State.setA s.cpu.a 2 s)

/-- ROL zp, opcode 0x26, cycles 5 (R207). -/
def execRolZp (z : Byte) (s : State) : Host.Outcome State Fault Refusal := .next (rmwMem rolOp (.zp z) 5 s)

/-- ROL zpx, opcode 0x36, cycles 6 (R207). -/
def execRolZpx (z : Byte) (s : State) : Host.Outcome State Fault Refusal := .next (rmwMem rolOp (.zpx z) 6 s)

/-- ROL abs, opcode 0x2E, cycles 6 (R207). -/
def execRolAbs (a : Word) (s : State) : Host.Outcome State Fault Refusal := .next (rmwMem rolOp (.abs a) 6 s)

/-- ROL abx, opcode 0x3E, cycles 7 (R207). -/
def execRolAbx (a : Word) (s : State) : Host.Outcome State Fault Refusal := .next (rmwMem rolOp (.abx a) 7 s)

/-- ROR acc, opcode 0x6A, cycles 2 (R208). -/
def execRorAcc (s : State) : Host.Outcome State Fault Refusal := .next (stepReg rorOp State.setA s.cpu.a 2 s)

/-- ROR zp, opcode 0x66, cycles 5 (R208). -/
def execRorZp (z : Byte) (s : State) : Host.Outcome State Fault Refusal := .next (rmwMem rorOp (.zp z) 5 s)

/-- ROR zpx, opcode 0x76, cycles 6 (R208). -/
def execRorZpx (z : Byte) (s : State) : Host.Outcome State Fault Refusal := .next (rmwMem rorOp (.zpx z) 6 s)

/-- ROR abs, opcode 0x6E, cycles 6 (R208). -/
def execRorAbs (a : Word) (s : State) : Host.Outcome State Fault Refusal := .next (rmwMem rorOp (.abs a) 6 s)

/-- ROR abx, opcode 0x7E, cycles 7 (R208). -/
def execRorAbx (a : Word) (s : State) : Host.Outcome State Fault Refusal := .next (rmwMem rorOp (.abx a) 7 s)

end Sys2Proof.Machine
end

