-- ==== Sys2Proof/Machine/Control.lean ====
section
/-! DEFINITION. Machine/Control.lean: jumps, calls, returns, branches, flag instructions and NOP
(43_cpu_control.md R215 to R238). Each definition is one row of 30_encoding.md R127: its operand form and its base
cycle count. At the call PC is the address of the next instruction (R143). -/

namespace Sys2Proof.Machine

/-- JMP indirect (R216). -/
def jumpIndirect (p : Word) (n : Nat) (s : State) : State :=
  let (target, s1) := jmpPointer p s
  (s1.setPc target).finish n

/-- JSR (R217): the address of the instruction's last byte is pushed, high byte first. -/
def callSubroutine (target : Word) (s : State) : State :=
  let r := s.cpu.pc - 1
  (push (field r 0 8) (push (field r 8 8) s)).setPc target

/-- RTS (R218): the stacked address plus one. -/
def returnFromSubroutine (s : State) : State :=
  let (lo, s1) := pull s
  let (hi, s2) := pull s1
  s2.setPc (word hi lo + 1)

/-- The common branch rule (R221): one cycle more when taken, one more again when the target is on another page
than the next instruction. -/
def branch (taken : Bool) (d : Byte) (n : Nat) (s : State) : State :=
  let target := branchTarget d s
  if taken then (s.setPc target).finish (n + 1 + (pageCross s.cpu.pc target).toNat) else s.finish n

/-- The seven flag instructions (R230 to R236): each writes one flag. -/
def clearC (f : Flags) : Flags := { f with c := false }
def setC (f : Flags) : Flags := { f with c := true }
def clearI (f : Flags) : Flags := { f with i := false }
def setI (f : Flags) : Flags := { f with i := true }
def clearD (f : Flags) : Flags := { f with d := false }
def setD (f : Flags) : Flags := { f with d := true }
def clearV (f : Flags) : Flags := { f with v := false }

/-- JMP abs, opcode 0x4C, cycles 3 (R215). -/
def execJmpAbs (a : Word) (s : State) : Host.Outcome State Fault Refusal := .next ((s.setPc a).finish 3)

/-- JMP ind, opcode 0x6C, cycles 5 (R216). -/
def execJmpInd (p : Word) (s : State) : Host.Outcome State Fault Refusal := .next (jumpIndirect p 5 s)

/-- JSR abs, opcode 0x20, cycles 6 (R217). -/
def execJsrAbs (a : Word) (s : State) : Host.Outcome State Fault Refusal := .next ((callSubroutine a s).finish 6)

/-- RTS imp, opcode 0x60, cycles 6 (R218). -/
def execRts (s : State) : Host.Outcome State Fault Refusal := .next ((returnFromSubroutine s).finish 6)

/-- RTI imp, opcode 0x40, cycles 6 (R219). -/
def execRti (s : State) : Host.Outcome State Fault Refusal := .next ((returnFromInterrupt s).finish 6)

/-- BRK imp, opcode 0x00, cycles 7 (R220). -/
def execBrk (s : State) : Host.Outcome State Fault Refusal := .next ((interrupt .brk (s.setPc (s.cpu.pc + 1))).finish 7)

/-- BCC rel, opcode 0x90, cycles 2+b (R222). -/
def execBccRel (d : Byte) (s : State) : Host.Outcome State Fault Refusal := .next (branch (!s.cpu.flags.c) d 2 s)

/-- BCS rel, opcode 0xB0, cycles 2+b (R223). -/
def execBcsRel (d : Byte) (s : State) : Host.Outcome State Fault Refusal := .next (branch s.cpu.flags.c d 2 s)

/-- BEQ rel, opcode 0xF0, cycles 2+b (R224). -/
def execBeqRel (d : Byte) (s : State) : Host.Outcome State Fault Refusal := .next (branch s.cpu.flags.z d 2 s)

/-- BNE rel, opcode 0xD0, cycles 2+b (R225). -/
def execBneRel (d : Byte) (s : State) : Host.Outcome State Fault Refusal := .next (branch (!s.cpu.flags.z) d 2 s)

/-- BMI rel, opcode 0x30, cycles 2+b (R226). -/
def execBmiRel (d : Byte) (s : State) : Host.Outcome State Fault Refusal := .next (branch s.cpu.flags.n d 2 s)

/-- BPL rel, opcode 0x10, cycles 2+b (R227). -/
def execBplRel (d : Byte) (s : State) : Host.Outcome State Fault Refusal := .next (branch (!s.cpu.flags.n) d 2 s)

/-- BVC rel, opcode 0x50, cycles 2+b (R228). -/
def execBvcRel (d : Byte) (s : State) : Host.Outcome State Fault Refusal := .next (branch (!s.cpu.flags.v) d 2 s)

/-- BVS rel, opcode 0x70, cycles 2+b (R229). -/
def execBvsRel (d : Byte) (s : State) : Host.Outcome State Fault Refusal := .next (branch s.cpu.flags.v d 2 s)

/-- CLC imp, opcode 0x18, cycles 2 (R230). -/
def execClc (s : State) : Host.Outcome State Fault Refusal := .next ((s.setFlags (clearC s.cpu.flags)).finish 2)

/-- SEC imp, opcode 0x38, cycles 2 (R231). -/
def execSec (s : State) : Host.Outcome State Fault Refusal := .next ((s.setFlags (setC s.cpu.flags)).finish 2)

/-- CLI imp, opcode 0x58, cycles 2 (R232). -/
def execCli (s : State) : Host.Outcome State Fault Refusal := .next ((s.setFlags (clearI s.cpu.flags)).finish 2)

/-- SEI imp, opcode 0x78, cycles 2 (R233). -/
def execSei (s : State) : Host.Outcome State Fault Refusal := .next ((s.setFlags (setI s.cpu.flags)).finish 2)

/-- CLD imp, opcode 0xD8, cycles 2 (R234). -/
def execCld (s : State) : Host.Outcome State Fault Refusal := .next ((s.setFlags (clearD s.cpu.flags)).finish 2)

/-- SED imp, opcode 0xF8, cycles 2 (R235). -/
def execSed (s : State) : Host.Outcome State Fault Refusal := .next ((s.setFlags (setD s.cpu.flags)).finish 2)

/-- CLV imp, opcode 0xB8, cycles 2 (R236). -/
def execClv (s : State) : Host.Outcome State Fault Refusal := .next ((s.setFlags (clearV s.cpu.flags)).finish 2)

/-- NOP imp, opcode 0xEA, cycles 2 (R237). -/
def execNop (s : State) : Host.Outcome State Fault Refusal := .next (s.finish 2)

end Sys2Proof.Machine
end

