-- ==== Sys2Proof/Machine/LoadStore.lean ====
section
/-! DEFINITION. Machine/LoadStore.lean: loads, stores, register transfers and stack instructions
(41_cpu_load_store.md R170 to R185). Each definition is one row of 30_encoding.md R127: its operand form and its
base cycle count. -/

namespace Sys2Proof.Machine

/-- A load (R170 to R172): the operand goes to the register, Z and N follow it. -/
def load (set : Byte → State → State) (src : Source) (n : Nat) (s : State) : State :=
  let (m, s1) := operand src s
  ((set m s1).setZN m).finish (n + pagePenalty src s)

/-- A store (R173 to R175): one write of the effective address, no flag, never a page-cross penalty. -/
def store (v : Byte) (m : Addr) (n : Nat) (s : State) : State := (storeTo m v s).finish n

/-- A register transfer that writes Z and N (R176 to R180). -/
def transfer (set : Byte → State → State) (v : Byte) (n : Nat) (s : State) : State := ((set v s).setZN v).finish n

/-- `m <- Pull(); A <- m; SetZN(m)` (R184). -/
def pullA (s : State) : State :=
  let (m, s1) := pull s
  (s1.setA m).setZN m

/-- `m <- Pull(); SetP(m)` (R185). -/
def pullFlags (s : State) : State :=
  let (m, s1) := pull s
  s1.setFlags (Flags.ofByte m)

/-- LDA imm, opcode 0xA9, cycles 2 (R170). -/
def execLdaImm (b : Byte) (s : State) : Host.Outcome State Fault Refusal := .next (load State.setA (.imm b) 2 s)

/-- LDA zp, opcode 0xA5, cycles 3 (R170). -/
def execLdaZp (z : Byte) (s : State) : Host.Outcome State Fault Refusal := .next (load State.setA (.mem (.zp z)) 3 s)

/-- LDA zpx, opcode 0xB5, cycles 4 (R170). -/
def execLdaZpx (z : Byte) (s : State) : Host.Outcome State Fault Refusal := .next (load State.setA (.mem (.zpx z)) 4 s)

/-- LDA abs, opcode 0xAD, cycles 4 (R170). -/
def execLdaAbs (a : Word) (s : State) : Host.Outcome State Fault Refusal := .next (load State.setA (.mem (.abs a)) 4 s)

/-- LDA abx, opcode 0xBD, cycles 4+p (R170). -/
def execLdaAbx (a : Word) (s : State) : Host.Outcome State Fault Refusal := .next (load State.setA (.mem (.abx a)) 4 s)

/-- LDA aby, opcode 0xB9, cycles 4+p (R170). -/
def execLdaAby (a : Word) (s : State) : Host.Outcome State Fault Refusal := .next (load State.setA (.mem (.aby a)) 4 s)

/-- LDA izx, opcode 0xA1, cycles 6 (R170). -/
def execLdaIzx (z : Byte) (s : State) : Host.Outcome State Fault Refusal := .next (load State.setA (.mem (.izx z)) 6 s)

/-- LDA izy, opcode 0xB1, cycles 5+p (R170). -/
def execLdaIzy (z : Byte) (s : State) : Host.Outcome State Fault Refusal := .next (load State.setA (.mem (.izy z)) 5 s)

/-- LDX imm, opcode 0xA2, cycles 2 (R171). -/
def execLdxImm (b : Byte) (s : State) : Host.Outcome State Fault Refusal := .next (load State.setX (.imm b) 2 s)

/-- LDX zp, opcode 0xA6, cycles 3 (R171). -/
def execLdxZp (z : Byte) (s : State) : Host.Outcome State Fault Refusal := .next (load State.setX (.mem (.zp z)) 3 s)

/-- LDX zpy, opcode 0xB6, cycles 4 (R171). -/
def execLdxZpy (z : Byte) (s : State) : Host.Outcome State Fault Refusal := .next (load State.setX (.mem (.zpy z)) 4 s)

/-- LDX abs, opcode 0xAE, cycles 4 (R171). -/
def execLdxAbs (a : Word) (s : State) : Host.Outcome State Fault Refusal := .next (load State.setX (.mem (.abs a)) 4 s)

/-- LDX aby, opcode 0xBE, cycles 4+p (R171). -/
def execLdxAby (a : Word) (s : State) : Host.Outcome State Fault Refusal := .next (load State.setX (.mem (.aby a)) 4 s)

/-- LDY imm, opcode 0xA0, cycles 2 (R172). -/
def execLdyImm (b : Byte) (s : State) : Host.Outcome State Fault Refusal := .next (load State.setY (.imm b) 2 s)

/-- LDY zp, opcode 0xA4, cycles 3 (R172). -/
def execLdyZp (z : Byte) (s : State) : Host.Outcome State Fault Refusal := .next (load State.setY (.mem (.zp z)) 3 s)

/-- LDY zpx, opcode 0xB4, cycles 4 (R172). -/
def execLdyZpx (z : Byte) (s : State) : Host.Outcome State Fault Refusal := .next (load State.setY (.mem (.zpx z)) 4 s)

/-- LDY abs, opcode 0xAC, cycles 4 (R172). -/
def execLdyAbs (a : Word) (s : State) : Host.Outcome State Fault Refusal := .next (load State.setY (.mem (.abs a)) 4 s)

/-- LDY abx, opcode 0xBC, cycles 4+p (R172). -/
def execLdyAbx (a : Word) (s : State) : Host.Outcome State Fault Refusal := .next (load State.setY (.mem (.abx a)) 4 s)

/-- STA zp, opcode 0x85, cycles 3 (R173). -/
def execStaZp (z : Byte) (s : State) : Host.Outcome State Fault Refusal := .next (store s.cpu.a (.zp z) 3 s)

/-- STA zpx, opcode 0x95, cycles 4 (R173). -/
def execStaZpx (z : Byte) (s : State) : Host.Outcome State Fault Refusal := .next (store s.cpu.a (.zpx z) 4 s)

/-- STA abs, opcode 0x8D, cycles 4 (R173). -/
def execStaAbs (a : Word) (s : State) : Host.Outcome State Fault Refusal := .next (store s.cpu.a (.abs a) 4 s)

/-- STA abx, opcode 0x9D, cycles 5 (R173). -/
def execStaAbx (a : Word) (s : State) : Host.Outcome State Fault Refusal := .next (store s.cpu.a (.abx a) 5 s)

/-- STA aby, opcode 0x99, cycles 5 (R173). -/
def execStaAby (a : Word) (s : State) : Host.Outcome State Fault Refusal := .next (store s.cpu.a (.aby a) 5 s)

/-- STA izx, opcode 0x81, cycles 6 (R173). -/
def execStaIzx (z : Byte) (s : State) : Host.Outcome State Fault Refusal := .next (store s.cpu.a (.izx z) 6 s)

/-- STA izy, opcode 0x91, cycles 6 (R173). -/
def execStaIzy (z : Byte) (s : State) : Host.Outcome State Fault Refusal := .next (store s.cpu.a (.izy z) 6 s)

/-- STX zp, opcode 0x86, cycles 3 (R174). -/
def execStxZp (z : Byte) (s : State) : Host.Outcome State Fault Refusal := .next (store s.cpu.x (.zp z) 3 s)

/-- STX zpy, opcode 0x96, cycles 4 (R174). -/
def execStxZpy (z : Byte) (s : State) : Host.Outcome State Fault Refusal := .next (store s.cpu.x (.zpy z) 4 s)

/-- STX abs, opcode 0x8E, cycles 4 (R174). -/
def execStxAbs (a : Word) (s : State) : Host.Outcome State Fault Refusal := .next (store s.cpu.x (.abs a) 4 s)

/-- STY zp, opcode 0x84, cycles 3 (R175). -/
def execStyZp (z : Byte) (s : State) : Host.Outcome State Fault Refusal := .next (store s.cpu.y (.zp z) 3 s)

/-- STY zpx, opcode 0x94, cycles 4 (R175). -/
def execStyZpx (z : Byte) (s : State) : Host.Outcome State Fault Refusal := .next (store s.cpu.y (.zpx z) 4 s)

/-- STY abs, opcode 0x8C, cycles 4 (R175). -/
def execStyAbs (a : Word) (s : State) : Host.Outcome State Fault Refusal := .next (store s.cpu.y (.abs a) 4 s)

/-- TAX imp, opcode 0xAA, cycles 2 (R176). -/
def execTax (s : State) : Host.Outcome State Fault Refusal := .next (transfer State.setX s.cpu.a 2 s)

/-- TAY imp, opcode 0xA8, cycles 2 (R177). -/
def execTay (s : State) : Host.Outcome State Fault Refusal := .next (transfer State.setY s.cpu.a 2 s)

/-- TXA imp, opcode 0x8A, cycles 2 (R178). -/
def execTxa (s : State) : Host.Outcome State Fault Refusal := .next (transfer State.setA s.cpu.x 2 s)

/-- TYA imp, opcode 0x98, cycles 2 (R179). -/
def execTya (s : State) : Host.Outcome State Fault Refusal := .next (transfer State.setA s.cpu.y 2 s)

/-- TSX imp, opcode 0xBA, cycles 2 (R180). -/
def execTsx (s : State) : Host.Outcome State Fault Refusal := .next (transfer State.setX s.cpu.sp 2 s)

/-- TXS imp, opcode 0x9A, cycles 2 (R181). -/
def execTxs (s : State) : Host.Outcome State Fault Refusal := .next ((s.setSp s.cpu.x).finish 2)

/-- PHA imp, opcode 0x48, cycles 3 (R182). -/
def execPha (s : State) : Host.Outcome State Fault Refusal := .next ((push s.cpu.a s).finish 3)

/-- PHP imp, opcode 0x08, cycles 3 (R183). -/
def execPhp (s : State) : Host.Outcome State Fault Refusal := .next ((push (s.cpu.flags.toByte true) s).finish 3)

/-- PLA imp, opcode 0x68, cycles 4 (R184). -/
def execPla (s : State) : Host.Outcome State Fault Refusal := .next ((pullA s).finish 4)

/-- PLP imp, opcode 0x28, cycles 4 (R185). -/
def execPlp (s : State) : Host.Outcome State Fault Refusal := .next ((pullFlags s).finish 4)

end Sys2Proof.Machine
end

