-- ==== Sys2Proof/Machine/Undefined.lean ====
section
/-! DEFINITION. Machine/Undefined.lean: the undefined opcodes (44_cpu_undefined.md R240 to R242). -/

namespace Sys2Proof.Machine

/-- UND (R240): no register, flag or memory changes; `UNDEF_CYCLES` cycles. The opcode byte plays no part, since all
105 rows are one instruction. The model's mark `undSeen` (93_implementation_defined.md U1, log entry 5) is set. -/
def execUnd (_op : Byte) (s : State) : Host.Outcome State Fault Refusal :=
  .next ({ s with undSeen := true }.finish s.cfg.params.undefCycles)

end Sys2Proof.Machine
end

