-- ==== Sys2Proof/Machine/Cycle.lean ====
section
/-! DEFINITION. Machine/Cycle.lean: the CPU tick (40_cpu_step_addressing.md R140, R141), the machine cycle
(70_reset_and_hazards.md R452) and its place in the frame step (R457). -/

namespace Sys2Proof.Machine

/-- Fetch and decode the instruction at PC (R141, R142): the opcode byte, then the operand bytes its length asks
for, in rising order. Every fetch is an ordinary `CpuRead` (20_memory.md R116). -/
def fetchInstr (s : State) : Instr × State :=
  let (op, s1) := fetch s
  if instrLength op = 1 then (decodeBytes op 0 0, s1)
  else
    let (b1, s2) := fetch s1
    if instrLength op = 2 then (decodeBytes op b1 0, s2)
    else
      let (b2, s3) := fetch s2
      (decodeBytes op b1 b2, s3)

/-- Service the NMI latch (R141): the latch is cleared, then the entry sequence runs. -/
def serviceNmi (s : State) : State :=
  (interrupt .nmi { s with cpu := { s.cpu with pendNMI := false } }).finish interruptCycles

/-- Service the IRQ latch (R141). -/
def serviceIrq (s : State) : State :=
  (interrupt .irq { s with cpu := { s.cpu with pendIRQ := false } }).finish interruptCycles

/-- Fetch, decode and execute one instruction (R141). -/
def runInstr (s : State) : Host.Outcome State Fault Refusal :=
  let (i, s1) := fetchInstr s
  exec i s1

/-- `ExecuteStep` (R141): NMI first, then IRQ when I = 0, else the next instruction (60_exceptions.md R405). -/
def executeStep (s : State) : Host.Outcome State Fault Refusal :=
  if s.cpu.pendNMI then .next (serviceNmi s)
  else if s.cpu.pendIRQ && !s.cpu.flags.i then .next (serviceIrq s)
  else runInstr s

/-- The start of a CPU tick (R140): the tick is counted and the external IRQ input sampled. -/
def beginTick (s : State) : State :=
  let cyc := s.cpu.cyc + 1
  { s with cpu := { s.cpu with cyc := cyc, pendIRQ := s.cpu.pendIRQ || s.cfg.irqIn.contains cyc } }

/-- `CpuTick` (R140). -/
def cpuTick (s : State) : Host.Outcome State Fault Refusal :=
  let s1 := beginTick s
  if 0 < s1.cpu.wait then .next { s1 with cpu := { s1.cpu with wait := s1.cpu.wait - 1 } }
  else executeStep s1

/-- The three dots of a machine cycle (R452). -/
def threeDots (s : State) : State := ppuTick (ppuTick (ppuTick s))

/-- The audio tick on the whole state (46_apu.md R323). -/
def audioUnitTick (s : State) : State := { s with apu := apuTick s.cfg.params s.apu }

/-- What `f` makes of the next state of an outcome. A stop stays a stop. -/
def afterNext (f : State → State) : Host.Outcome State Fault Refusal → Host.Outcome State Fault Refusal
  | .next s => .next (f s)
  | .fault r => .fault r
  | .refused r => .refused r

/-- `MachineCycle` (R452): three dots, one CPU tick, one audio tick. -/
def machineCycle (s : State) : Host.Outcome State Fault Refusal := afterNext audioUnitTick (cpuTick (threeDots s))

/-! ## The frame step -/

/-- The end of a frame step (R457): the frame's audio, when it is enabled (46_apu.md R330, R339). -/
def endFrame (s : State) : State :=
  if s.apu.audioEnabled then { s with apu := generateFrameAudio s.cfg.params s.apu } else s

/-- The machine cycle is counted in its frame step; the one that completes `CYCLES_PER_FRAME` ends it (R457). -/
def countCycle (s : State) : State :=
  if s.cfg.params.cyclesPerFrame ≤ s.frameCycle + 1 then endFrame { s with frameCycle := 0 }
  else { s with frameCycle := s.frameCycle + 1 }

/-- A machine cycle as part of a frame step. -/
def frameCycleStep (s : State) : Host.Outcome State Fault Refusal := afterNext countCycle (machineCycle s)

/-! ## Placing an instruction where the next cycle fetches it -/

/-- Put byte `b` in the storage cell that `CpuRead(a)` returns. Only addresses of work RAM, PRG RAM and PRG ROM have
one (20_memory.md R71); ROM cells are configuration, changed here as loading another cartridge would. -/
def placeByte (a : Word) (b : Byte) (s : State) : State :=
  if a < 0x2000 then { s with ram := s.ram.write (a &&& 0x07FF).toNat b }
  else if a < 0x8000 then { s with prgRam := s.prgRam.write (prgRamOffset a) b }
  else
    let i := match s.cfg.cart.mapperId with
      | .m0 | .m3 => romOffset a % (prgBankSize * s.cfg.cart.prgBanks)
      | .m1 => prgBankSize * (mmc1PrgBank s.cfg.cart s.mapper a % s.cfg.cart.prgBanks) + bankOffset a
      | .m2 =>
        if a < 0xC000 then prgBankSize * (s.mapper.prgSel.toNat % s.cfg.cart.prgBanks) + bankOffset a
        else prgBankSize * ((s.cfg.cart.prgBanks - 1) % s.cfg.cart.prgBanks) + bankOffset a
    { s with cfg := { s.cfg with cart := { s.cfg.cart with prg := s.cfg.cart.prg.write i b } } }

/-- `CpuRead(a)` returns a storage cell. -/
def hasCell (s : State) (a : Word) : Bool :=
  decide (a < 0x2000) || decide (0x8000 ≤ a) || (decide (0x6000 ≤ a) && s.cfg.cart.hasPrgRam)

/-- Where three bytes can be placed for the next fetch: PC itself when the three addresses from PC have cells,
else the start of work RAM page 2. -/
def placeAt (s : State) : Word :=
  if hasCell s s.cpu.pc && hasCell s (s.cpu.pc + 1) && hasCell s (s.cpu.pc + 2) then s.cpu.pc else 0x0200

/-- The state at an instruction boundary at which no interrupt is taken in the coming cycle: no idle tick owed, no
latch set, no external request in the coming tick, and the video interrupt off if one of the next three dots
would raise it. -/
def atBoundary (s : State) : State :=
  let s1 := { s with
    cpu := { s.cpu with wait := 0, dmaStall := 0, pendNMI := false, pendIRQ := false }
    cfg := { s.cfg with irqIn := s.cfg.irqIn.filter fun k => !(k == s.cpu.cyc + 1) } }
  if (threeDots s1).cpu.pendNMI then { s1 with ppu := { s1.ppu with ctrl := s1.ppu.ctrl &&& 0x7F } } else s1

/-- `bytes` in the cells from `a` on. -/
def placeBytes : Word → List Byte → State → State
  | _, [], s => s
  | a, b :: bs, s => placeBytes (a + 1) bs (placeByte a b s)

/-- Set everything that makes the next cycle fetch `bytes` as an instruction: it stands for loading a program from
outside (DESIGN CHOICE, log entry 2; safe: no step uses it). -/
def placeInstr (bytes : List Byte) (s : State) : State :=
  let s1 := atBoundary s
  let a := placeAt s1
  placeBytes a bytes (s1.setPc a)

end Sys2Proof.Machine
end

