-- ==== Sys2Proof/Machine/Step.lean ====
section
/-! DEFINITION. Machine/Step.lean: the step of the machine, one machine cycle (70_reset_and_hazards.md R452: "The
atomic step of the whole machine") of a frame step (R457). -/

namespace Sys2Proof.Machine

/-- One step: a machine cycle, and with the last cycle of a frame step the audio of the frame. An instruction runs
whole in the cycle that fetches it; its other cycles are steps in which the CPU idles (40_cpu_step_addressing.md
R140). DESIGN CHOICE, log entries 8 and 9; safe. -/
def step (s : State) : Host.Outcome State Fault Refusal := frameCycleStep s

/-- `s` with the instruction whose bits are `w` (the bits from `nbits` on zero) stored where `step` fetches its next
instruction, and everything set that makes the very next step run it. -/
def State.withFetchWord (s : State) (nbits w : Nat) : State := placeInstr (tableBytes nbits w) s

end Sys2Proof.Machine
end

