-- ==== Sys2Proof/Machine/HostOps.lean ====
section
/-! DEFINITION. Machine/HostOps.lean: the operations of the host, the only outside agent (70_reset_and_hazards.md
R455 to R462, 46_apu.md R338, R339). They run between frame steps only: `hostStep` refuses them in the middle of one
(R452, R455, 93_implementation_defined.md U13). -/

namespace Sys2Proof.Machine

/-! ## Construction and reset -/

/-- The cartridge record as the host gives it (47_mapper.md R350): a mapper number and the ROM bytes in order. -/
structure CartRecord where
  mapperId : Nat
  prgBanks : Nat
  chrBanks : Nat
  mirroring : Mirroring
  hasPrgRam : Bool
  prg : List Byte
  chr : List Byte
deriving DecidableEq, Repr

/-- The mapper of an identifier; no other identifier has one (R352). -/
def mapperOfId : Nat → Option MapperId
  | 0 => some .m0
  | 1 => some .m1
  | 2 => some .m2
  | 3 => some .m3
  | _ => none

/-- The header's mirroring is one of three (R350; DEDUCED, log entry 18: any other is refused; safe). -/
def headerMirroring : Mirroring → Bool
  | .horizontal | .vertical | .fourScreen => true
  | .singleLow | .singleHigh => false

/-- The conditions of R350, R352 on a record beside its mapper identifier. -/
def CartRecord.sized (r : CartRecord) : Bool :=
  decide (1 ≤ r.prgBanks) && decide (r.prg.length = prgBankSize * r.prgBanks) &&
    decide (r.chr.length = chrBankSize * r.chrBanks) && headerMirroring r.mirroring

/-- The cartridge of a record that meets R352, else none. -/
def CartRecord.toCart (r : CartRecord) : Option Cart :=
  match mapperOfId r.mapperId with
  | none => none
  | some m =>
    if r.sized then
      some { mapperId := m, prgBanks := r.prgBanks, chrBanks := r.chrBanks, mirroring := r.mirroring,
             hasPrgRam := r.hasPrgRam, prg := Memory.ofBytes 0 r.prg, chr := Memory.ofBytes 0 r.chr }
    else none

/-- `PC <- Read16(0xFFFC)` (R441): two ordinary reads through the mapper as it stands. -/
def primePc (s : State) : State :=
  let (pc, s1) := read16 resetVector s
  s1.setPc pc

/-- The power-on state of a cartridge (R461): every memory 0, the assignments of reset(), then the snapshot is a copy
of the live state. -/
def powerOnState (cfg : Config) : State :=
  let s := primePc (State.powerOn cfg 0)
  { s with snap := s.toLive }

/-- `construct(Cart)` (R461): a record that fails R352 yields no machine. -/
def construct (params : Params) (irqIn : List Nat) (r : CartRecord) : Host.Outcome State Fault Refusal :=
  match r.toCart with
  | none => .refused .badCartridge
  | some cart => .next (powerOnState { params := params, cart := cart, irqIn := irqIn })

/-- `reset()` (R456): CPU, picture unit and audio unit at their reset values; every memory, the mapper registers,
the controller state, `master`, `audioEnabled` and the snapshot kept; PC primed last. -/
def hostReset (s : State) : State :=
  primePc { s with cpu := resetCpu s.cpu.pc, ppu := resetPpu, apu := resetApu s.apu.master s.apu.audioEnabled }

/-! ## Between frame steps -/

/-- No frame step is in progress: the only time at which the host acts (R452, R455). -/
def State.betweenFrames (s : State) : Bool := s.frameCycle == 0

/-- What the host reads, or the refusal of a read in the middle of a frame step (93_implementation_defined.md U13). -/
def hostRead {α : Type} (s : State) (v : α) : Except Refusal α :=
  if s.betweenFrames then .ok v else .error .midFrameStep

/-! ## The frame step -/

/-- `n` machine cycles, stopping at the first fault or refusal (there is none, R400). -/
def runCycles : Nat → State → Host.Outcome State Fault Refusal
  | 0, s => .next s
  | n + 1, s =>
    match step s with
    | .next s1 => runCycles n s1
    | .fault r => .fault r
    | .refused r => .refused r

/-- `step()` of the host, the frame step (R457): `CYCLES_PER_FRAME` machine cycles; the last one ends with the audio
of the frame (`countCycle`). -/
def frameStep (s : State) : Host.Outcome State Fault Refusal := runCycles s.cfg.params.cyclesPerFrame s

/-! ## Snapshot, inputs, accessors -/

/-- `backup()` (R459). -/
def backup (s : State) : State := { s with snap := s.toLive }

/-- `restore()` (R459): the live state becomes a copy of the snapshot; the button bytes are inputs and stay. -/
def restore (s : State) : State := { s with toLive := s.snap }

/-- `set_buttons(p, b)` for port 0 (`p` false) or port 1 (R460). -/
def setButtons (p : Bool) (b : Byte) (s : State) : State :=
  if p then { s with buttons1 := b } else { s with buttons0 := b }

/-- The frame geometry (R462): width and height. -/
def frameGeometry : Nat × Nat := (screenWidth, screenHeight)

/-- `framebuffer()` (R458): the cell at row `y` of 240, column `x` of 256. -/
def framebufferCell (s : State) (y : Fin screenHeight) (x : Fin screenWidth) : Except Refusal (BitVec 6) :=
  hostRead s (s.ppu.fb.read (fbIndex y x))

/-- `memory()` (R458): byte `k` of the 2048 bytes of work RAM; no side effect. -/
def memoryByte (s : State) (k : BitVec 11) : Except Refusal Byte := hostRead s (s.ram.read k.toNat)

/-- A host write through `memory()` (R458): a write of `ram`. -/
def pokeMemory (k : BitVec 11) (b : Byte) (s : State) : State := { s with ram := s.ram.write k.toNat b }

/-- The read-only audio view (46_apu.md R338): the samples, which stay in the buffer. -/
def audioView (s : State) : Except Refusal (List Rat) := hostRead s s.apu.samples

/-- The buffer empty; the filter memory and all channel state unchanged (R338). -/
def clearBuffer (s : State) : State := { s with apu := { s.apu with samples := [] } }

/-- `get_and_clear_buffer()` (R338): the samples so far, and the state with the buffer empty. -/
def getAndClearBuffer (s : State) : Except Refusal (List Rat × State) := hostRead s (s.apu.samples, clearBuffer s)

/-- `set_master_volume(q)` (R339). -/
def setMasterVolume (q : Rat) (s : State) : State := { s with apu := { s.apu with master := clamp q 0 1 } }

/-- `set_audio_enabled(b)` (R339). -/
def setAudioEnabled (b : Bool) (s : State) : State := { s with apu := { s.apu with audioEnabled := b } }

/-- The host's operations that change the machine (R455). `construct` makes a machine and is not among them. -/
inductive HostOp where
  | reset
  | frameStep
  | backup
  | restore
  | setButtons (p : Bool) (b : Byte)
  | pokeMemory (k : BitVec 11) (b : Byte)
  | clearBuffer
  | setMasterVolume (q : Rat)
  | setAudioEnabled (b : Bool)
deriving DecidableEq, Repr

/-- What an operation does between frame steps. -/
def hostEffect (op : HostOp) (s : State) : Host.Outcome State Fault Refusal :=
  match op with
  | .reset => .next (hostReset s)
  | .frameStep => frameStep s
  | .backup => .next (backup s)
  | .restore => .next (restore s)
  | .setButtons p b => .next (setButtons p b s)
  | .pokeMemory k b => .next (pokeMemory k b s)
  | .clearBuffer => .next (clearBuffer s)
  | .setMasterVolume q => .next (setMasterVolume q s)
  | .setAudioEnabled b => .next (setAudioEnabled b s)

/-- One host operation on a machine (R455): "at most one stepping call in flight at a time"; in the middle of a frame
step every operation is refused (R452, R460, 93_implementation_defined.md U13). -/
def hostStep (op : HostOp) (s : State) : Host.Outcome State Fault Refusal :=
  if s.betweenFrames then hostEffect op s else .refused .midFrameStep

end Sys2Proof.Machine
end

