-- ==== Sys2Proof/Safety.lean ====
section
/-! DEFINITION. Safety.lean: the words the statements use: what a byte of CPU memory is, what a bus access or an
instruction leaves unchanged (its frame), and the invariant of the machine's state. -/

namespace Sys2Proof.Machine

/-! ## Memory as the CPU sees it -/

/-- The byte the CPU reads at `a`. -/
def byteAt (s : State) (a : Word) : Byte := (cpuRead a s).1

/-- `a` is in work RAM or in the cartridge window (20_memory.md R71); every other address is a register of a unit
or is unmapped. -/
def isMemory (a : Word) : Bool := decide (a < 0x2000) || decide (0x6000 ≤ a)

/-- `a` and `b` name the same byte of memory: work RAM repeats every 0x0800 bytes (20_memory.md R72). -/
def sameCell (a b : Word) : Bool :=
  if a < 0x2000 then decide (b < 0x2000) && (a &&& 0x07FF) == (b &&& 0x07FF) else a == b

/-- The CPU addresses whose read has a side effect (20_memory.md R81). -/
def hasReadEffect (a : Word) : Bool :=
  (decide (0x2000 ≤ a) && decide (a < 0x4000) && (a.toNat % 8 == 2 || a.toNat % 8 == 7)) || a == 0x4016 || a == 0x4017

/-- The CPU addresses whose write is an APU register write (20_memory.md R87, R90). -/
def isApuRegister (a : Word) : Bool :=
  (decide (0x4000 ≤ a) && decide (a < 0x4014)) || a == 0x4015 || a == 0x4017

/-- A PPU register (20_memory.md R71). -/
def isPpuRegister (a : Word) : Bool := decide (0x2000 ≤ a) && decide (a < 0x4000)

/-! ## Frames -/

/-- Everything outside the CPU, work RAM, the picture unit and the controller ports is the same. -/
structure RestKept (s t : State) : Prop where
  vram : t.vram = s.vram
  palette : t.palette = s.palette
  apu : t.apu = s.apu
  prgRam : t.prgRam = s.prgRam
  chrRam : t.chrRam = s.chrRam
  mapper : t.mapper = s.mapper
  buttons0 : t.buttons0 = s.buttons0
  buttons1 : t.buttons1 = s.buttons1
  cfg : t.cfg = s.cfg
  snap : t.snap = s.snap
  frameCycle : t.frameCycle = s.frameCycle
  undSeen : t.undSeen = s.undSeen
  framesReady : t.framesReady = s.framesReady

/-- Everything outside the CPU and work RAM is the same. -/
structure UnitsKept (s t : State) : Prop extends RestKept s t where
  ppu : t.ppu = s.ppu
  pads : t.pads = s.pads

/-- Every byte of memory reads as before. -/
def MemoryKept (s t : State) : Prop := ∀ a, isMemory a = true → byteAt t a = byteAt s a

/-- What one read of the CPU bus at `addr` (or no read) leaves unchanged outside the CPU: all memory, the picture
memories, OAM and the framebuffer, and, when the address is not on the list of R81, every register too. -/
structure ReadFrame (addr : Option Word) (s t : State) : Prop extends RestKept s t where
  memory : MemoryKept s t
  ram : t.ram = s.ram
  oam : t.ppu.oam = s.ppu.oam
  fb : t.ppu.fb = s.ppu.fb
  quiet : (∀ a, addr = some a → hasReadEffect a = false) → t.ppu = s.ppu ∧ t.pads = s.pads

/-- What one write of `v` on the CPU bus at `ea` does to memory, and what it leaves unchanged outside the CPU. The
bytes of the ROM window can change only through the bank registers of the mapper. -/
structure WriteFrame (ea : Word) (v : Byte) (s t : State) : Prop where
  stored : ea < 0x2000 → byteAt t ea = v
  storedPrgRam : 0x6000 ≤ ea → ea < 0x8000 → byteAt t ea = if s.cfg.cart.hasPrgRam then v else 0
  memory : ∀ a, isMemory a = true → sameCell ea a = false → (ea < 0x8000 ∨ a < 0x8000) → byteAt t a = byteAt s a
  banked : 0x8000 ≤ ea → t.mapper = writePrg s.cfg.cart ea v s.mapper
  ram : 0x2000 ≤ ea → t.ram = s.ram
  prgRam : ea < 0x6000 ∨ 0x8000 ≤ ea → t.prgRam = s.prgRam
  mapper : ea < 0x8000 → t.mapper = s.mapper
  picture : isPpuRegister ea = false → t.vram = s.vram ∧ t.palette = s.palette ∧ t.chrRam = s.chrRam
  ppu : isPpuRegister ea = false → ea ≠ 0x4014 → t.ppu = s.ppu
  pads : ea ≠ 0x4014 → ea ≠ 0x4016 → t.pads = s.pads
  apu : isApuRegister ea = false → t.apu = s.apu
  buttons0 : t.buttons0 = s.buttons0
  buttons1 : t.buttons1 = s.buttons1
  cfg : t.cfg = s.cfg
  snap : t.snap = s.snap
  frameCycle : t.frameCycle = s.frameCycle
  undSeen : t.undSeen = s.undSeen
  framesReady : t.framesReady = s.framesReady

/-- Extra ticks a write at `ea` asks for: an OAM DMA's 513, one more when the tick counter is odd (20_memory.md
R93), else none. -/
def dmaTicks (ea : Word) (s : State) : Nat := if ea = 0x4014 then 513 + s.cpu.cyc % 2 else 0

/-- Every byte of memory outside the stack slots that `sp`, `sp` - 1, ... (`n` of them) name reads as before. -/
def MemoryKeptOffStack (n : Nat) (s t : State) : Prop :=
  ∀ a, isMemory a = true → (∀ k, k < n → sameCell (stackAddr (s.cpu.sp - BitVec.ofNat 8 k)) a = false) →
    byteAt t a = byteAt s a

/-- What the entry sequence `Interrupt(k)` does (60_exceptions.md R410) and what it leaves unchanged (R411), from the
state `s` before it to the state `t` after it. -/
structure EntryEffect (k : IntKind) (s t : State) : Prop extends UnitsKept s t where
  pushedHigh : byteAt t (stackAddr s.cpu.sp) = field s.cpu.pc 8 8
  pushedLow : byteAt t (stackAddr (s.cpu.sp - 1)) = field s.cpu.pc 0 8
  pushedStatus : byteAt t (stackAddr (s.cpu.sp - 2)) = s.cpu.flags.toByte k.breakBit
  sp : t.cpu.sp = s.cpu.sp - 3
  flags : t.cpu.flags = { s.cpu.flags with i := true }
  pc : t.cpu.pc = word (byteAt s (k.vector + 1)) (byteAt s k.vector)
  a : t.cpu.a = s.cpu.a
  x : t.cpu.x = s.cpu.x
  y : t.cpu.y = s.cpu.y
  cyc : t.cpu.cyc = s.cpu.cyc
  memory : MemoryKeptOffStack 3 s t

/-! ## The invariant -/

/-- A memory in its canonical form with every listed cell inside it. -/
def MemoryOk {w : Nat} (size : Nat) (m : Memory w) : Prop := m.wf = true ∧ m.within size = true

/-- A sprite buffer: at most eight OAM indices in rising order (10_state.md R41). -/
def SpriteListOk (l : List Nat) : Prop := l.length ≤ 8 ∧ (∀ i ∈ l, i < 64) ∧ l.Pairwise (· < ·)

/-- The picture unit: its position is one of the 262 x 341 dots, its memories and sprite buffers are well formed. -/
structure PpuOk (p : Ppu) : Prop where
  scanline : p.scanline < 262
  dot : p.dot < 341
  oam : MemoryOk oamSize p.oam
  fb : MemoryOk fbSize p.fb
  sprCur : SpriteListOk p.sprCur
  sprNext : SpriteListOk p.sprNext

/-- A phase or a clock accumulator lies in [0, 1) (10_state.md R44 to R46). -/
def InUnit (q : Rat) : Prop := 0 ≤ q ∧ q < 1

/-- A sample lies in [-1, 1] (10_state.md R49). -/
def InRange (q : Rat) : Prop := -1 ≤ q ∧ q ≤ 1

/-- A pulse channel: its frequency is the one its period gives, or both are 0 as reset leaves them (46_apu.md R319). -/
structure PulseOk (p : Params) (ch : Pulse) : Prop where
  freq : (ch.freq = 0 ∧ ch.period = 0) ∨ ch.freq = pulseFreq p ch.period
  phase : InUnit ch.phase

/-- The triangle channel, likewise. -/
structure TriOk (p : Params) (ch : Tri) : Prop where
  freq : (ch.freq = 0 ∧ ch.period = 0) ∨ ch.freq = triFreq p ch.period
  phase : InUnit ch.phase

/-- The noise channel: "never 0 (it starts at 1 and the feedback keeps it nonzero)" (46_apu.md R333). -/
structure NoiseOk (p : Params) (ch : Noise) : Prop where
  freq : ch.freq = 0 ∨ ch.freq = noiseFreq p ch.periodIdx
  lfsr : ch.lfsr ≠ 0
  acc : InUnit ch.acc

/-- The audio unit (10_state.md R44 to R49). -/
structure ApuOk (p : Params) (u : Apu) : Prop where
  pulse0 : PulseOk p u.pulse0
  pulse1 : PulseOk p u.pulse1
  tri : TriOk p u.tri
  noise : NoiseOk p u.noise
  seqCount : u.seqCount < p.qfPeriod
  seqStep : u.seqStep < seqLength u.seqMode
  samples : ∀ y ∈ u.samples, InRange y
  capped : u.samples.length ≤ bufferCap
  yPrev : InRange u.yPrev
  master : 0 ≤ u.master ∧ u.master ≤ 1

/-- Mapper 1's shift register holds fewer than five bits and nothing above them (10_state.md R53). -/
structure MapperOk (m : MapperRegs) : Prop where
  srCount : m.srCount < 5
  sr : m.sr.toNat < 2 ^ m.srCount

/-- The live state (10_state.md R20 to R53). Memory the cartridge does not have holds nothing (R52). -/
structure LiveOk (cfg : Config) (l : Live) : Prop where
  ram : MemoryOk ramSize l.ram
  vram : MemoryOk vramSize l.vram
  palette : MemoryOk paletteSize l.palette
  prgRam : MemoryOk prgRamSize l.prgRam
  chrRam : MemoryOk chrRamSize l.chrRam
  noPrgRam : cfg.cart.hasPrgRam = false → l.prgRam = []
  noChrRam : cfg.cart.chrBanks ≠ 0 → l.chrRam = []
  ppu : PpuOk l.ppu
  apu : ApuOk cfg.params l.apu
  mapper : MapperOk l.mapper
  dmaStall : l.cpu.dmaStall = 0

/-- The invariant of the machine between steps: the live state and the snapshot are well formed and the frame step is
short of its last cycle, for a sequencer period and a frame step of at least one cycle. -/
structure Inv (s : State) : Prop where
  qfPeriod : 0 < s.cfg.params.qfPeriod
  frameCycle : s.frameCycle < s.cfg.params.cyclesPerFrame
  live : LiveOk s.cfg s.toLive
  snap : LiveOk s.cfg s.snap

end Sys2Proof.Machine
end

