-- ==== Sys2Proof/Certificates/Slice0/Obligations.lean ====
section
/-! DEFINITION. Certificates/Slice0/Obligations.lean: the statements about the model, each from the numbered rules of
the spec that its docstring names. -/

namespace Sys2Proof.Claims

open Sys2Proof Sys2Proof.Machine

/-! ## Words for the statements -/

/-- One row of 30_encoding.md R127 for an instruction that reads an operand: the instruction, where the operand
comes from, the opcode byte, the base cycles, and whether the cell is marked `+p`. -/
structure ReadRow where
  instr : Instr
  src : Source
  opcode : Byte
  cycles : Nat
  plusP : Bool

/-- The operand: the immediate byte, or the byte read at the effective address. -/
def ReadRow.value (r : ReadRow) (s : State) : Byte :=
  match r.src with
  | .imm b => b
  | .mem m => byteAt s (effAddr m s)

/-- The address of the operand's one read, if it has one. -/
def ReadRow.addr (r : ReadRow) (s : State) : Option Word :=
  match r.src with
  | .imm _ => none
  | .mem m => some (effAddr m s)

/-- The state after that read, with the side effect the address has. -/
def ReadRow.after (r : ReadRow) (s : State) : State :=
  match r.src with
  | .imm _ => s
  | .mem m => (cpuRead (effAddr m s) s).2

/-- The cycle count: the base, and one more in a `+p` row when indexing leaves the page (40_cpu_step_addressing.md
R158). -/
def ReadRow.ticks (r : ReadRow) (s : State) : Nat :=
  match r.plusP, r.src with
  | true, .mem m => r.cycles + if (baseAddr m s).toNat / 256 = (effAddr m s).toNat / 256 then 0 else 1
  | _, _ => r.cycles

/-- The row's opcode byte begins the instruction's encoding, and the instruction has the row's mnemonic and mode. -/
def ReadRow.encoded (r : ReadRow) (mn : Mnemonic) : Prop :=
  (encode r.instr).head? = some r.opcode ∧ r.instr.form = (mn, r.src.toOperand)

/-- One row of R127 for an instruction that stores to memory or reads and rewrites it. -/
structure MemRow where
  instr : Instr
  mode : Addr
  opcode : Byte
  cycles : Nat

/-- As `ReadRow.encoded`. -/
def MemRow.encoded (r : MemRow) (mn : Mnemonic) : Prop :=
  (encode r.instr).head? = some r.opcode ∧ r.instr.form = (mn, .mem r.mode)

/-- `SetZN(r)` in numbers (00_scope.md R8): Z is 1 for 0, N is bit 7. -/
def flagsZN (r : Byte) (f : Flags) : Flags := { f with z := decide (r.toNat = 0), n := decide (128 ≤ r.toNat) }

/-- `s8`, the signed value of a byte (00_scope.md R7). -/
def s8 (b : Byte) : Int := if b.toNat < 128 then b.toNat else (b.toNat : Int) - 256

/-- `P(b)`, the pushed status byte, in numbers (00_scope.md R8): N V 1 b D I Z C. -/
def statusNumber (b : Bool) (f : Flags) : Nat :=
  128 * f.n.toNat + 64 * f.v.toNat + 32 + 16 * b.toNat + 8 * f.d.toNat + 4 * f.i.toNat + 2 * f.z.toNat + f.c.toNat

/-- `SetP(v)` in numbers: bit k of `v` is `v / 2^k` modulo 2. -/
def flagsOf (p : Byte) : Flags :=
  { c := p.toNat % 2 == 1, z := p.toNat / 2 % 2 == 1, i := p.toNat / 4 % 2 == 1, d := p.toNat / 8 % 2 == 1,
    v := p.toNat / 64 % 2 == 1, n := p.toNat / 128 == 1 }

/-- The state at the moment the CPU acts in a machine cycle: three dots have run, the tick is counted and the
interrupt input sampled (70_reset_and_hazards.md R452, 40_cpu_step_addressing.md R140). -/
def atTick (s : State) : State := beginTick (threeDots s)

/-- The audio of a frame, when it is enabled (70_reset_and_hazards.md R457, 46_apu.md R339). -/
def withAudio (t : State) : State :=
  { t with apu := if t.apu.audioEnabled then generateFrameAudio t.cfg.params t.apu else t.apu }

/-- What the rest of a step makes of the state the CPU tick leaves: the audio tick that ends the machine cycle (R452);
then one more cycle of the frame step is done, and after the last of them comes the audio of the frame (R457). The count
`frameCycle`, and that the step which completes it makes the audio, are the model's choice (log entry 9). -/
def afterCycle (t : State) : State :=
  let u := { t with apu := apuTick t.cfg.params t.apu }
  if t.frameCycle + 1 < t.cfg.params.cyclesPerFrame then { u with frameCycle := t.frameCycle + 1 }
  else withAudio { u with frameCycle := 0 }

/-- `n` machine cycles (R452) with nothing between them but their count, which is the model's own (log entry 9). -/
def machineCycles : Nat → State → Host.Outcome State Fault Refusal
  | 0, s => .next s
  | n + 1, s =>
    match machineCycle s with
    | .next t => machineCycles n { t with frameCycle := t.frameCycle + 1 }
    | o => o

/-- Operations of the host in order, stopping at the first that is refused. -/
def runOps : List HostOp → State → Host.Outcome State Fault Refusal
  | [], s => .next s
  | op :: ops, s =>
    match hostStep op s with
    | .next t => runOps ops t
    | o => o

/-- The state after reads of `n` CPU addresses from `a` on. -/
def readsFrom : Nat → Word → State → State
  | 0, _, s => s
  | n + 1, a, s => readsFrom n (a + 1) (cpuRead a s).2

/-- What a machine cycle leaves unchanged when its CPU tick is idle: everything but the picture unit's own state,
the audio unit, the CPU's counters and latches and the count of the frame step. -/
structure IdleFrame (s t : State) : Prop where
  ram : t.ram = s.ram
  pads : t.pads = s.pads
  vram : t.vram = s.vram
  palette : t.palette = s.palette
  prgRam : t.prgRam = s.prgRam
  chrRam : t.chrRam = s.chrRam
  mapper : t.mapper = s.mapper
  buttons0 : t.buttons0 = s.buttons0
  buttons1 : t.buttons1 = s.buttons1
  cfg : t.cfg = s.cfg
  snap : t.snap = s.snap
  undSeen : t.undSeen = s.undSeen

/-- A state with the two interrupt latches set as given. -/
def withLatches (nmi irq : Bool) (s : State) : State :=
  { s with cpu := { s.cpu with pendNMI := nmi, pendIRQ := irq } }

/-- The same on an outcome. -/
def withLatchesOut (nmi irq : Bool) : Host.Outcome State Fault Refusal → Host.Outcome State Fault Refusal
  | .next s => .next (withLatches nmi irq s)
  | .fault r => .fault r
  | .refused r => .refused r

/-- The columns of a tile row's two planes: the 2-bit pattern value of column `k`, 0 the leftmost (20_memory.md R110). -/
def planeValue (lo hi : Byte) (k : Nat) : Nat := 2 * (hi.toNat / 2 ^ (7 - k) % 2) + lo.toNat / 2 ^ (7 - k) % 2

/-- The pattern value at column `k` of the tile row at picture address `a`. -/
def tilePixel (s : State) (a k : Nat) : Nat :=
  planeValue (ppuRead s (BitVec.ofNat 16 a)) (ppuRead s (BitVec.ofNat 16 (a + 8))) k

/-- The parts of a scroll address (10_state.md R38): coarse x, coarse y, nametable, fine y. -/
def coarseX (v : BitVec 15) : Nat := v.toNat % 32
def coarseY (v : BitVec 15) : Nat := v.toNat / 32 % 32
def nametable (v : BitVec 15) : Nat := v.toNat / 1024 % 4
def fineY (v : BitVec 15) : Nat := v.toNat / 4096

/-- The scroll address of four parts. -/
def scroll (fy nt cy cx : Nat) : BitVec 15 := BitVec.ofNat 15 (4096 * fy + 1024 * nt + 32 * cy + cx)

/-- The background pixel in numbers (45_ppu.md R278): pattern value and palette. -/
def backgroundAt (s : State) (c : Nat) : Nat × Nat :=
  let p := s.ppu
  if p.mask.getLsbD 3 = false ∨ (c < 8 ∧ p.mask.getLsbD 1 = false) then (0, 0)
  else
    let tile := (ppuRead s (BitVec.ofNat 16 (0x2000 + p.v.toNat % 4096))).toNat
    let attr := (ppuRead s (BitVec.ofNat 16 (0x23C0 + 1024 * nametable p.v + 8 * (coarseY p.v / 4) + coarseX p.v / 4))).toNat
    (tilePixel s (4096 * (p.ctrl.getLsbD 4).toNat + 16 * tile + fineY p.v) ((p.x.toNat + c) % 8),
     attr / 4 ^ (2 * (coarseY p.v / 2 % 2) + coarseX p.v / 2 % 2) % 4)

/-- What sprite `i` shows at column `c` of the current scanline (R279, R280): pattern value, palette, behind, sprite 0;
none where it does not reach or is transparent. -/
def spriteShows (s : State) (c i : Nat) : Option (Nat × Nat × Bool × Bool) :=
  let p := s.ppu
  let top := (p.oam.read (4 * i)).toNat + 1
  let tile := (p.oam.read (4 * i + 1)).toNat
  let attr := (p.oam.read (4 * i + 2)).toNat
  let left := (p.oam.read (4 * i + 3)).toNat
  let h := if p.ctrl.getLsbD 5 then 16 else 8
  if left ≤ c ∧ c ≤ left + 7 ∧ top ≤ p.scanline ∧ p.scanline < top + h then
    let row := if attr / 128 = 1 then h - 1 - (p.scanline - top) else p.scanline - top
    let col := if attr / 64 % 2 = 1 then 7 - (c - left) else c - left
    let a := if h = 8 then 4096 * (p.ctrl.getLsbD 3).toNat + 16 * tile + row
      else 4096 * (tile % 2) + 16 * (tile / 2 * 2) + (if row < 8 then row else row + 8)
    if tilePixel s a col = 0 then none
    else some (tilePixel s a col, attr % 4, decide (attr / 32 % 2 = 1), decide (i = 0))
  else none

/-- The sprite pixel (R279): the first sprite of `sprCur` that shows. -/
def spriteLayer (s : State) (c : Nat) : Option (Nat × Nat × Bool × Bool) :=
  if s.ppu.mask.getLsbD 4 = false ∨ (c < 8 ∧ s.ppu.mask.getLsbD 2 = false) then none
  else s.ppu.sprCur.findSome? (spriteShows s c)

/-- The palette entry of a pixel (R281), of 32. -/
def entryShown (s : State) (c : Nat) : Nat :=
  let bg := backgroundAt s c
  match spriteLayer s c with
  | none => if bg.1 = 0 then 0 else 4 * bg.2 + bg.1
  | some (pv, pal, behind, _) => if bg.1 ≠ 0 ∧ behind = true then 4 * bg.2 + bg.1 else 16 + 4 * pal + pv

/-- The colour of a pixel (R283): 6 bits, of which greyscale keeps the upper two. -/
def colourShown (s : State) (c : Nat) : Nat :=
  let col := (s.palette.read (entryShown s c)).toNat % 64
  if s.ppu.mask.getLsbD 0 then col / 16 * 16 else col

/-- Sprite 0 is hit at column `c` (R282). -/
def hitAt (s : State) (c : Nat) : Bool :=
  match spriteLayer s c with
  | some (_, _, _, true) => decide ((backgroundAt s c).1 ≠ 0) && decide (c ≠ 255)
  | _ => false

/-- One tile to the right (R266). -/
def nextColumn (v : BitVec 15) : BitVec 15 :=
  if coarseX v = 31 then
    scroll (fineY v) (nametable v / 2 * 2 + (1 - nametable v % 2)) (coarseY v) 0
  else scroll (fineY v) (nametable v) (coarseY v) (coarseX v + 1)

/-- One row down (R267). -/
def nextRow (v : BitVec 15) : BitVec 15 :=
  if fineY v < 7 then scroll (fineY v + 1) (nametable v) (coarseY v) (coarseX v)
  else if coarseY v = 29 then scroll 0 ((nametable v + 2) % 4) 0 (coarseX v)
  else scroll 0 (nametable v) ((coarseY v + 1) % 32) (coarseX v)

/-- The scroll address after a dot with rendering enabled (R264, R270 to R274). -/
def scrollAfter (p : Ppu) : BitVec 15 :=
  if p.scanline < 240 ∧ 1 ≤ p.dot ∧ p.dot ≤ 256 ∧ (p.x.toNat + (p.dot - 1)) % 8 = 7 then nextColumn p.v
  else if p.scanline < 240 ∧ p.dot = 257 then nextRow p.v
  else if (p.scanline < 240 ∨ p.scanline = 261) ∧ p.dot = 258 then
    scroll (fineY p.v) (nametable p.v / 2 * 2 + nametable p.t % 2) (coarseY p.v) (coarseX p.t)
  else if p.scanline = 261 ∧ 280 ≤ p.dot ∧ p.dot ≤ 304 then
    scroll (fineY p.t) (nametable p.t / 2 * 2 + nametable p.v % 2) (coarseY p.t) (coarseX p.v)
  else p.v

/-- The sprites of OAM that reach scanline `n`, in OAM order (45_ppu.md R285). -/
def spritesOn (p : Ppu) (n : Nat) : List Nat :=
  (List.range 64).filter fun i =>
    decide ((p.oam.read (4 * i)).toNat + 1 ≤ n) &&
      decide (n < (p.oam.read (4 * i)).toNat + 1 + (if p.ctrl.getLsbD 5 then 16 else 8))

/-- The index of the current dot in the frame of 262 x 341 dots (45_ppu.md R260). -/
def dotIndex (p : Ppu) : Nat := 341 * p.scanline + p.dot

/-- `n` reads of the CPU address `a`: the bytes in order and the state after them. -/
def readsOf (a : Word) : Nat → State → List Byte × State
  | 0, s => ([], s)
  | n + 1, s =>
    let (b, s1) := cpuRead a s
    let (bs, s2) := readsOf a n s1
    (b :: bs, s2)

/-- `n` audio ticks. -/
def apuTicks (p : Params) : Nat → Apu → Apu
  | 0, u => u
  | n + 1, u => apuTicks p n (apuTick p u)

/-- `LengthTable` (46_apu.md R328). -/
def lengthValues : List Nat :=
  [10, 254, 20, 2, 40, 4, 80, 6, 160, 8, 60, 10, 14, 12, 26, 14] ++
  [12, 16, 24, 18, 48, 20, 96, 22, 192, 24, 72, 26, 16, 28, 32, 30]

/-- `NoisePeriod` (46_apu.md R329). -/
def noisePeriods : List Nat := [4, 8, 16, 32, 64, 96, 128, 160, 202, 254, 380, 508, 762, 1016, 2034, 4068]

/-- The length that a byte with a length index in bits 7 to 3 loads. -/
def lengthLoaded (d : Byte) : Byte := BitVec.ofNat 8 (lengthValues.getD (d.toNat / 8) 0)

/-- The frequencies of a period (46_apu.md R319), of a pulse channel and of the triangle. -/
def pulseHz (cpuHz period : Nat) : Rat := if period = 0 then 440 else (cpuHz : Rat) / (16 * ((period : Rat) + 1))
def triHz (cpuHz period : Nat) : Rat := (cpuHz : Rat) / (32 * ((period : Rat) + 1))

/-- A pulse channel with its period set (R319). -/
def withPeriod (cpuHz period : Nat) (ch : Pulse) : Pulse :=
  { ch with period := BitVec.ofNat 11 period, freq := pulseHz cpuHz period }

/-- The four registers of a pulse channel (46_apu.md R302 to R309): `r` is 0 to 3. -/
def pulseWritten (cpuHz r : Nat) (d : Byte) (ch : Pulse) : Pulse :=
  let n := d.toNat
  match r with
  | 0 => { ch with
      duty := BitVec.ofNat 2 (n / 64), halt := n / 32 % 2 == 1, constVol := n / 16 % 2 == 1
      volume := BitVec.ofNat 4 (n % 16) }
  | 1 => { ch with
      swEnable := n / 128 == 1, swPeriod := BitVec.ofNat 3 (n / 16 % 8), swNegate := n / 8 % 2 == 1
      swShift := BitVec.ofNat 3 (n % 8), swReload := true }
  | 2 => withPeriod cpuHz (ch.period.toNat / 256 * 256 + n) ch
  | _ => { withPeriod cpuHz (n % 8 * 256 + ch.period.toNat % 256) ch with enabled := true, length := lengthLoaded d }

/-- The clock of the triangle's linear counter (46_apu.md R325). -/
def quarterOf (u : Apu) : Apu :=
  { u with tri := { u.tri with
    linear := BitVec.ofNat 7 (if u.tri.linFlag then u.tri.linReload.toNat else u.tri.linear.toNat - 1)
    linFlag := if u.tri.control then u.tri.linFlag else false } }

/-- A length counter after its clock (46_apu.md R326). -/
def countDown (halt : Bool) (n : Byte) : Byte := if halt then n else BitVec.ofNat 8 (n.toNat - 1)

/-- A pulse channel after the clock of its sweep (46_apu.md R327); `one` is 1 for pulse 0, 0 for pulse 1. -/
def sweptPulse (cpuHz : Nat) (one : Int) (ch : Pulse) : Pulse :=
  let period := ch.period.toNat
  let delta := period / 2 ^ ch.swShift.toNat
  let target : Int := if ch.swNegate then period - delta - one else period + delta
  let moved := if ch.swDiv = 0 ∧ ch.swEnable = true ∧ 0 < ch.swShift.toNat ∧ 8 ≤ period ∧ 0 ≤ target ∧ target ≤ 2047
    then withPeriod cpuHz target.toNat ch else ch
  if ch.swDiv = 0 ∨ ch.swReload = true then { moved with swDiv := ch.swPeriod, swReload := false }
  else { moved with swDiv := BitVec.ofNat 3 (ch.swDiv.toNat - 1) }

/-- The clock of the length counters, then of the sweeps (R326, R327). -/
def halfOf (cpuHz : Nat) (u : Apu) : Apu :=
  { u with
    pulse0 := sweptPulse cpuHz 1 { u.pulse0 with length := countDown u.pulse0.halt u.pulse0.length }
    pulse1 := sweptPulse cpuHz 0 { u.pulse1 with length := countDown u.pulse1.halt u.pulse1.length }
    noise := { u.noise with length := countDown u.noise.halt u.noise.length }
    tri := { u.tri with length := countDown u.tri.control u.tri.length } }

/-- The phase of a tone after one sample (46_apu.md R331, R332): `hz` / 44100 of a cycle on, whole cycles dropped. -/
def phaseAfter (hz phase : Rat) : Rat := phase + hz / 44100 - ((phase + hz / 44100).floor : Rat)

/-- A pulse channel's sample and the channel after it (R331): high for 1/8, 1/4, 1/2 or 3/4 of the cycle. -/
def pulseOut (ch : Pulse) : Rat × Pulse :=
  if ch.enabled = false ∨ ch.freq = 0 ∨ ch.volume.toNat = 0 ∨ ch.length.toNat = 0 then (0, ch)
  else
    let high : Rat := if ch.duty.toNat = 0 then 1 / 8 else if ch.duty.toNat = 1 then 1 / 4
      else if ch.duty.toNat = 2 then 1 / 2 else 3 / 4
    (if ch.phase < high then (ch.volume.toNat : Rat) / 15 else -((ch.volume.toNat : Rat) / 15),
     { ch with phase := phaseAfter ch.freq ch.phase })

/-- The triangle's sample and the channel after it (R332): up from -1 to 1 in the first half cycle, then down. -/
def triangleOut (ch : Tri) : Rat × Tri :=
  if ch.enabled = false ∨ ch.freq = 0 ∨ ch.length.toNat = 0 ∨ ch.linear.toNat = 0 then (0, ch)
  else
    (if ch.phase < 1 / 2 then 4 * ch.phase - 1 else 3 - 4 * ch.phase, { ch with phase := phaseAfter ch.freq ch.phase })

/-- One clock of the noise register (R333): it moves one place down; the sum of bit 0 and bit 6 (in mode 1) or bit 1,
modulo 2, enters at bit 14. -/
def noiseShift (mode : Bool) (r : Nat) : Nat := r / 2 + 16384 * ((r + r / (if mode then 64 else 2)) % 2)

/-- `n` clocks of the noise register. -/
def noiseShifts (mode : Bool) : Nat → Nat → Nat
  | 0, r => r
  | n + 1, r => noiseShifts mode n (noiseShift mode r)

/-- The noise channel after `k` rounds of the loop of R333, each of which takes 1 from `acc` and clocks the register. -/
def noiseRounds (k : Nat) (ch : Noise) : Noise :=
  { ch with lfsr := BitVec.ofNat 15 (noiseShifts ch.mode k ch.lfsr.toNat), acc := ch.acc - (k : Rat) }

/-- The noise channel's sample and the channel after it (R333): up when bit 0 of the register is 0. The loop runs
floor(acc) rounds (log entry 12). -/
def noiseOut (ch : Noise) : Rat × Noise :=
  if ch.enabled = false ∨ ch.freq = 0 ∨ ch.volume.toNat = 0 ∨ ch.length.toNat = 0 then (0, ch)
  else
    let acc := ch.acc + ch.freq / 44100
    (if ch.lfsr.toNat % 2 = 0 then (ch.volume.toNat : Rat) / 15 else -((ch.volume.toNat : Rat) / 15),
     noiseRounds acc.floor.toNat { ch with acc := acc })

/-- The filter in one line (R336), limited to [-1, 1]; `newFirst` is `FILTER_NEW_FIRST` (92_eei_decisions.md D43). -/
def lowPassed (newFirst : Bool) (old m : Rat) : Rat :=
  let y : Rat := if newFirst then (18 / 25) * m + (7 / 25) * old else (1 / 50) * m + (49 / 50) * old
  if y < -1 then -1 else if 1 < y then 1 else y

/-- One sample and the audio unit after it, the buffer apart (R330, R334, R335): every channel once, mixed, filtered. -/
def sampleOf (p : Params) (u : Apu) : Rat × Apu :=
  let a := pulseOut u.pulse0
  let b := pulseOut u.pulse1
  let t := triangleOut u.tri
  let n := noiseOut u.noise
  let y := lowPassed p.filterNewFirst u.yPrev
    (u.master * (p.wPulse * (a.1 + b.1) + p.wTri * t.1 + p.wNoise * n.1))
  (y, { u with pulse0 := a.2, pulse1 := b.2, tri := t.2, noise := n.2, yPrev := y })

/-- The next `n` samples in order, and the audio unit after them, the buffer apart. -/
def samplesOf (p : Params) : Nat → Apu → List Rat × Apu
  | 0, u => ([], u)
  | n + 1, u =>
    let first := sampleOf p u
    let rest := samplesOf p n first.2
    (first.1 :: rest.1, rest.2)

/-- CPU writes in order. -/
def writesOf : List (Word × Byte) → State → State
  | [], s => s
  | (a, v) :: ws, s => writesOf ws (cpuWrite a v s)

/-- The pages of the logical nametables 0, 1, 2, 3 (20_memory.md R103). -/
def nametablePages : Mirroring → List Nat
  | .horizontal => [0, 0, 1, 1]
  | .vertical => [0, 1, 0, 1]
  | .singleLow => [0, 0, 0, 0]
  | .singleHigh => [1, 1, 1, 1]
  | .fourScreen => [0, 1, 2, 3]

/-- The index in pattern memory of a picture address below 0x2000 (47_mapper.md R355, R358, R365, R368). -/
def patternIndex (s : State) (a : Nat) : Nat :=
  let n := s.cfg.cart.chrBanks
  match s.cfg.cart.mapperId with
  | .m0 | .m2 => a
  | .m3 => if n = 0 then a else 8192 * (s.mapper.chrSel.toNat % n) + a
  | .m1 =>
    let even := s.mapper.chrBank0.toNat / 2 * 2
    let b := if s.mapper.chrMode then (if a < 4096 then s.mapper.chrBank0.toNat else s.mapper.chrBank1.toNat)
      else (if a < 4096 then even else even + 1)
    4096 * (b % (if n = 0 then 2 else 2 * n)) + a % 4096

/-- The mapper registers after the five-bit value `v` is loaded by a write to `a` (47_mapper.md R362, R363): the control
register below 0xA000, then the two pattern banks, then from 0xE000 on the program bank. -/
def loadedBy (a : Word) (v : BitVec 5) (m : MapperRegs) : MapperRegs :=
  if a < 0xA000 then
    { m with
      mirror := (if v.toNat % 4 = 0 then .singleLow else if v.toNat % 4 = 1 then .singleHigh
        else if v.toNat % 4 = 2 then .vertical else .horizontal)
      prgMode := BitVec.ofNat 2 (v.toNat / 4), chrMode := decide (16 ≤ v.toNat) }
  else if a < 0xC000 then { m with chrBank0 := v }
  else if a < 0xE000 then { m with chrBank1 := v }
  else { m with prgBank := v }

/-- A byte whose bit 7 is 0 and whose bit 0 is `b`: what mapper 1 takes one serial bit from (47_mapper.md R361). -/
def carriesBit (d : Byte) (b : Bool) : Prop := d.getLsbD 7 = false ∧ d.getLsbD 0 = b

/-- `t` is `s` with one CPU record in place of another: nothing outside the CPU differs. -/
def onlyCpu (s : State) (c : Cpu) : State := { s with cpu := c }

/-- The CPU record at the end of an instruction of `n` cycles (R140): `n` - 1 idle ticks and any stall are owed. -/
def ended (n : Nat) (c : Cpu) : Cpu := { c with wait := n - 1 + c.dmaStall, dmaStall := 0 }

/-! ## The rows of R127 -/

/-- LDA, every mode (30_encoding.md R127). -/
def ldaRows (b z : Byte) (a : Word) : List ReadRow :=
  [⟨.ldaImm b, .imm b, 0xA9, 2, false⟩, ⟨.ldaZp z, .mem (.zp z), 0xA5, 3, false⟩,
   ⟨.ldaZpx z, .mem (.zpx z), 0xB5, 4, false⟩, ⟨.ldaAbs a, .mem (.abs a), 0xAD, 4, false⟩,
   ⟨.ldaAbx a, .mem (.abx a), 0xBD, 4, true⟩, ⟨.ldaAby a, .mem (.aby a), 0xB9, 4, true⟩,
   ⟨.ldaIzx z, .mem (.izx z), 0xA1, 6, false⟩, ⟨.ldaIzy z, .mem (.izy z), 0xB1, 5, true⟩]

/-- LDX, every mode (30_encoding.md R127). -/
def ldxRows (b z : Byte) (a : Word) : List ReadRow :=
  [⟨.ldxImm b, .imm b, 0xA2, 2, false⟩, ⟨.ldxZp z, .mem (.zp z), 0xA6, 3, false⟩,
   ⟨.ldxZpy z, .mem (.zpy z), 0xB6, 4, false⟩, ⟨.ldxAbs a, .mem (.abs a), 0xAE, 4, false⟩,
   ⟨.ldxAby a, .mem (.aby a), 0xBE, 4, true⟩]

/-- LDY, every mode (30_encoding.md R127). -/
def ldyRows (b z : Byte) (a : Word) : List ReadRow :=
  [⟨.ldyImm b, .imm b, 0xA0, 2, false⟩, ⟨.ldyZp z, .mem (.zp z), 0xA4, 3, false⟩,
   ⟨.ldyZpx z, .mem (.zpx z), 0xB4, 4, false⟩, ⟨.ldyAbs a, .mem (.abs a), 0xAC, 4, false⟩,
   ⟨.ldyAbx a, .mem (.abx a), 0xBC, 4, true⟩]

/-- ADC, every mode (30_encoding.md R127). -/
def adcRows (b z : Byte) (a : Word) : List ReadRow :=
  [⟨.adcImm b, .imm b, 0x69, 2, false⟩, ⟨.adcZp z, .mem (.zp z), 0x65, 3, false⟩,
   ⟨.adcZpx z, .mem (.zpx z), 0x75, 4, false⟩, ⟨.adcAbs a, .mem (.abs a), 0x6D, 4, false⟩,
   ⟨.adcAbx a, .mem (.abx a), 0x7D, 4, true⟩, ⟨.adcAby a, .mem (.aby a), 0x79, 4, true⟩,
   ⟨.adcIzx z, .mem (.izx z), 0x61, 6, false⟩, ⟨.adcIzy z, .mem (.izy z), 0x71, 5, true⟩]

/-- SBC, every mode (30_encoding.md R127). -/
def sbcRows (b z : Byte) (a : Word) : List ReadRow :=
  [⟨.sbcImm b, .imm b, 0xE9, 2, false⟩, ⟨.sbcZp z, .mem (.zp z), 0xE5, 3, false⟩,
   ⟨.sbcZpx z, .mem (.zpx z), 0xF5, 4, false⟩, ⟨.sbcAbs a, .mem (.abs a), 0xED, 4, false⟩,
   ⟨.sbcAbx a, .mem (.abx a), 0xFD, 4, true⟩, ⟨.sbcAby a, .mem (.aby a), 0xF9, 4, true⟩,
   ⟨.sbcIzx z, .mem (.izx z), 0xE1, 6, false⟩, ⟨.sbcIzy z, .mem (.izy z), 0xF1, 5, true⟩]

/-- AND, every mode (30_encoding.md R127). -/
def andRows (b z : Byte) (a : Word) : List ReadRow :=
  [⟨.andImm b, .imm b, 0x29, 2, false⟩, ⟨.andZp z, .mem (.zp z), 0x25, 3, false⟩,
   ⟨.andZpx z, .mem (.zpx z), 0x35, 4, false⟩, ⟨.andAbs a, .mem (.abs a), 0x2D, 4, false⟩,
   ⟨.andAbx a, .mem (.abx a), 0x3D, 4, true⟩, ⟨.andAby a, .mem (.aby a), 0x39, 4, true⟩,
   ⟨.andIzx z, .mem (.izx z), 0x21, 6, false⟩, ⟨.andIzy z, .mem (.izy z), 0x31, 5, true⟩]

/-- ORA, every mode (30_encoding.md R127). -/
def oraRows (b z : Byte) (a : Word) : List ReadRow :=
  [⟨.oraImm b, .imm b, 0x09, 2, false⟩, ⟨.oraZp z, .mem (.zp z), 0x05, 3, false⟩,
   ⟨.oraZpx z, .mem (.zpx z), 0x15, 4, false⟩, ⟨.oraAbs a, .mem (.abs a), 0x0D, 4, false⟩,
   ⟨.oraAbx a, .mem (.abx a), 0x1D, 4, true⟩, ⟨.oraAby a, .mem (.aby a), 0x19, 4, true⟩,
   ⟨.oraIzx z, .mem (.izx z), 0x01, 6, false⟩, ⟨.oraIzy z, .mem (.izy z), 0x11, 5, true⟩]

/-- EOR, every mode (30_encoding.md R127). -/
def eorRows (b z : Byte) (a : Word) : List ReadRow :=
  [⟨.eorImm b, .imm b, 0x49, 2, false⟩, ⟨.eorZp z, .mem (.zp z), 0x45, 3, false⟩,
   ⟨.eorZpx z, .mem (.zpx z), 0x55, 4, false⟩, ⟨.eorAbs a, .mem (.abs a), 0x4D, 4, false⟩,
   ⟨.eorAbx a, .mem (.abx a), 0x5D, 4, true⟩, ⟨.eorAby a, .mem (.aby a), 0x59, 4, true⟩,
   ⟨.eorIzx z, .mem (.izx z), 0x41, 6, false⟩, ⟨.eorIzy z, .mem (.izy z), 0x51, 5, true⟩]

/-- BIT, every mode (30_encoding.md R127). -/
def bitRows (z : Byte) (a : Word) : List ReadRow :=
  [⟨.bitZp z, .mem (.zp z), 0x24, 3, false⟩, ⟨.bitAbs a, .mem (.abs a), 0x2C, 4, false⟩]

/-- CMP, every mode (30_encoding.md R127). -/
def cmpRows (b z : Byte) (a : Word) : List ReadRow :=
  [⟨.cmpImm b, .imm b, 0xC9, 2, false⟩, ⟨.cmpZp z, .mem (.zp z), 0xC5, 3, false⟩,
   ⟨.cmpZpx z, .mem (.zpx z), 0xD5, 4, false⟩, ⟨.cmpAbs a, .mem (.abs a), 0xCD, 4, false⟩,
   ⟨.cmpAbx a, .mem (.abx a), 0xDD, 4, true⟩, ⟨.cmpAby a, .mem (.aby a), 0xD9, 4, true⟩,
   ⟨.cmpIzx z, .mem (.izx z), 0xC1, 6, false⟩, ⟨.cmpIzy z, .mem (.izy z), 0xD1, 5, true⟩]

/-- CPX, every mode (30_encoding.md R127). -/
def cpxRows (b z : Byte) (a : Word) : List ReadRow :=
  [⟨.cpxImm b, .imm b, 0xE0, 2, false⟩, ⟨.cpxZp z, .mem (.zp z), 0xE4, 3, false⟩,
   ⟨.cpxAbs a, .mem (.abs a), 0xEC, 4, false⟩]

/-- CPY, every mode (30_encoding.md R127). -/
def cpyRows (b z : Byte) (a : Word) : List ReadRow :=
  [⟨.cpyImm b, .imm b, 0xC0, 2, false⟩, ⟨.cpyZp z, .mem (.zp z), 0xC4, 3, false⟩,
   ⟨.cpyAbs a, .mem (.abs a), 0xCC, 4, false⟩]

/-- STA, every memory mode (30_encoding.md R127). -/
def staRows (z : Byte) (a : Word) : List MemRow :=
  [⟨.staZp z, .zp z, 0x85, 3⟩, ⟨.staZpx z, .zpx z, 0x95, 4⟩,
   ⟨.staAbs a, .abs a, 0x8D, 4⟩, ⟨.staAbx a, .abx a, 0x9D, 5⟩,
   ⟨.staAby a, .aby a, 0x99, 5⟩, ⟨.staIzx z, .izx z, 0x81, 6⟩,
   ⟨.staIzy z, .izy z, 0x91, 6⟩]

/-- STX, every memory mode (30_encoding.md R127). -/
def stxRows (z : Byte) (a : Word) : List MemRow :=
  [⟨.stxZp z, .zp z, 0x86, 3⟩, ⟨.stxZpy z, .zpy z, 0x96, 4⟩,
   ⟨.stxAbs a, .abs a, 0x8E, 4⟩]

/-- STY, every memory mode (30_encoding.md R127). -/
def styRows (z : Byte) (a : Word) : List MemRow :=
  [⟨.styZp z, .zp z, 0x84, 3⟩, ⟨.styZpx z, .zpx z, 0x94, 4⟩,
   ⟨.styAbs a, .abs a, 0x8C, 4⟩]

/-- INC, every memory mode (30_encoding.md R127). -/
def incRows (z : Byte) (a : Word) : List MemRow :=
  [⟨.incZp z, .zp z, 0xE6, 5⟩, ⟨.incZpx z, .zpx z, 0xF6, 6⟩,
   ⟨.incAbs a, .abs a, 0xEE, 6⟩, ⟨.incAbx a, .abx a, 0xFE, 7⟩]

/-- DEC, every memory mode (30_encoding.md R127). -/
def decRows (z : Byte) (a : Word) : List MemRow :=
  [⟨.decZp z, .zp z, 0xC6, 5⟩, ⟨.decZpx z, .zpx z, 0xD6, 6⟩,
   ⟨.decAbs a, .abs a, 0xCE, 6⟩, ⟨.decAbx a, .abx a, 0xDE, 7⟩]

/-- ASL, every memory mode (30_encoding.md R127). -/
def aslRows (z : Byte) (a : Word) : List MemRow :=
  [⟨.aslZp z, .zp z, 0x06, 5⟩, ⟨.aslZpx z, .zpx z, 0x16, 6⟩,
   ⟨.aslAbs a, .abs a, 0x0E, 6⟩, ⟨.aslAbx a, .abx a, 0x1E, 7⟩]

/-- LSR, every memory mode (30_encoding.md R127). -/
def lsrRows (z : Byte) (a : Word) : List MemRow :=
  [⟨.lsrZp z, .zp z, 0x46, 5⟩, ⟨.lsrZpx z, .zpx z, 0x56, 6⟩,
   ⟨.lsrAbs a, .abs a, 0x4E, 6⟩, ⟨.lsrAbx a, .abx a, 0x5E, 7⟩]

/-- ROL, every memory mode (30_encoding.md R127). -/
def rolRows (z : Byte) (a : Word) : List MemRow :=
  [⟨.rolZp z, .zp z, 0x26, 5⟩, ⟨.rolZpx z, .zpx z, 0x36, 6⟩,
   ⟨.rolAbs a, .abs a, 0x2E, 6⟩, ⟨.rolAbx a, .abx a, 0x3E, 7⟩]

/-- ROR, every memory mode (30_encoding.md R127). -/
def rorRows (z : Byte) (a : Word) : List MemRow :=
  [⟨.rorZp z, .zp z, 0x66, 5⟩, ⟨.rorZpx z, .zpx z, 0x76, 6⟩,
   ⟨.rorAbs a, .abs a, 0x6E, 6⟩, ⟨.rorAbx a, .abx a, 0x7E, 7⟩]

/-- A register-to-register instruction: instruction, mnemonic, opcode, source, destination, and whether it sets Z
and N. -/
structure RegRow where
  instr : Instr
  mnemonic : Mnemonic
  opcode : Byte
  from_ : Cpu → Byte
  put : Byte → Cpu → Cpu
  setsZN : Bool

/-- The six transfers (41_cpu_load_store.md R176 to R181). -/
def transferRows : List RegRow :=
  [⟨.tax, .TAX, 0xAA, Cpu.a, fun v c => { c with x := v }, true⟩,
   ⟨.tay, .TAY, 0xA8, Cpu.a, fun v c => { c with y := v }, true⟩,
   ⟨.txa, .TXA, 0x8A, Cpu.x, fun v c => { c with a := v }, true⟩,
   ⟨.tya, .TYA, 0x98, Cpu.y, fun v c => { c with a := v }, true⟩,
   ⟨.tsx, .TSX, 0xBA, Cpu.sp, fun v c => { c with x := v }, true⟩,
   ⟨.txs, .TXS, 0x9A, Cpu.x, fun v c => { c with sp := v }, false⟩]

/-- The four register steps (42_cpu_arith_logic.md R201 to R204): the source is the destination; `step` is what is
added modulo 256. -/
structure StepRow where
  instr : Instr
  mnemonic : Mnemonic
  opcode : Byte
  from_ : Cpu → Byte
  put : Byte → Cpu → Cpu
  step : Nat

def stepRows : List StepRow :=
  [⟨.inx, .INX, 0xE8, Cpu.x, fun v c => { c with x := v }, 1⟩,
   ⟨.iny, .INY, 0xC8, Cpu.y, fun v c => { c with y := v }, 1⟩,
   ⟨.dex, .DEX, 0xCA, Cpu.x, fun v c => { c with x := v }, 255⟩,
   ⟨.dey, .DEY, 0x88, Cpu.y, fun v c => { c with y := v }, 255⟩]

/-- A shift or rotate (R205 to R208) as arithmetic on the operand and the carry before it: the number whose low
eight bits are the result, and the carry after it. -/
structure Shift where
  result : Nat → Nat → Nat
  carry : Nat → Bool

def aslShift : Shift := { result := fun m _ => 2 * m, carry := fun m => decide (128 ≤ m) }
def lsrShift : Shift := { result := fun m _ => m / 2, carry := fun m => m % 2 == 1 }
def rolShift : Shift := { result := fun m c => 2 * m + c, carry := fun m => decide (128 ≤ m) }
def rorShift : Shift := { result := fun m c => m / 2 + 128 * c, carry := fun m => m % 2 == 1 }

/-- The result byte of a shift. -/
def Shift.byte (h : Shift) (m : Byte) (f : Flags) : Byte := BitVec.ofNat 8 (h.result m.toNat f.c.toNat)

/-- The flags after a shift. -/
def Shift.flags (h : Shift) (m : Byte) (f : Flags) : Flags := flagsZN (h.byte m f) { f with c := h.carry m.toNat }

/-- The accumulator forms. -/
def shiftAccRows : List (Instr × Mnemonic × Byte × Shift) :=
  [(.aslAcc, .ASL, 0x0A, aslShift), (.lsrAcc, .LSR, 0x4A, lsrShift), (.rolAcc, .ROL, 0x2A, rolShift),
   (.rorAcc, .ROR, 0x6A, rorShift)]

/-- The memory forms. -/
def shiftMemRows (z : Byte) (a : Word) : List (MemRow × Mnemonic × Shift) :=
  (aslRows z a).map (fun r => (r, .ASL, aslShift)) ++ (lsrRows z a).map (fun r => (r, .LSR, lsrShift)) ++
  (rolRows z a).map (fun r => (r, .ROL, rolShift)) ++ (rorRows z a).map (fun r => (r, .ROR, rorShift))

/-- What a read-modify-write instruction of `n` cycles does (40_cpu_step_addressing.md R157): one read of `ea`, then
one write of `r` there, then the flags; no other byte of memory changes, and outside the CPU nothing but what the read
and the write do. -/
structure RmwEffect (ea : Word) (r : Byte) (f : Flags) (n : Nat) (s t : State) : Prop where
  cpu : t.cpu = { s.cpu with flags := f, wait := n - 1 + (s.cpu.dmaStall + dmaTicks ea s), dmaStall := 0 }
  frame : WriteFrame ea r (cpuRead ea s).2 t
  memory : ∀ a, isMemory a = true → sameCell ea a = false → (ea < 0x8000 ∨ a < 0x8000) → byteAt t a = byteAt s a
  bus : t = onlyCpu (cpuWrite ea r (cpuRead ea s).2) t.cpu

/-- A branch (43_cpu_control.md R222 to R229): instruction, mnemonic, opcode and condition. -/
structure BranchRow where
  instr : Instr
  mnemonic : Mnemonic
  opcode : Byte
  taken : Flags → Bool

def branchRows (d : Byte) : List BranchRow :=
  [⟨.bccRel d, .BCC, 0x90, fun f => !f.c⟩, ⟨.bcsRel d, .BCS, 0xB0, fun f => f.c⟩,
   ⟨.beqRel d, .BEQ, 0xF0, fun f => f.z⟩, ⟨.bneRel d, .BNE, 0xD0, fun f => !f.z⟩,
   ⟨.bmiRel d, .BMI, 0x30, fun f => f.n⟩, ⟨.bplRel d, .BPL, 0x10, fun f => !f.n⟩,
   ⟨.bvcRel d, .BVC, 0x50, fun f => !f.v⟩, ⟨.bvsRel d, .BVS, 0x70, fun f => f.v⟩]

/-- A flag instruction (43_cpu_control.md R230 to R236) or NOP (R237): what it makes of the flags. -/
def flagRows : List (Instr × Mnemonic × Byte × (Flags → Flags)) :=
  [(.clc, .CLC, 0x18, fun f => { f with c := false }), (.sec, .SEC, 0x38, fun f => { f with c := true }),
   (.cli, .CLI, 0x58, fun f => { f with i := false }), (.sei, .SEI, 0x78, fun f => { f with i := true }),
   (.cld, .CLD, 0xD8, fun f => { f with d := false }), (.sed, .SED, 0xF8, fun f => { f with d := true }),
   (.clv, .CLV, 0xB8, fun f => { f with v := false }), (.nop, .NOP, 0xEA, fun f => f)]

/-- Who writes which flag, and the stack pointer: the table of 10_state.md R23, and R21. -/
def callsSetZN : List Mnemonic :=
  [.LDA, .LDX, .LDY, .TAX, .TAY, .TXA, .TYA, .TSX, .PLA, .AND, .ORA, .EOR, .ADC, .SBC, .CMP, .CPX, .CPY, .INC, .DEC,
   .INX] ++ [.INY, .DEX, .DEY, .ASL, .LSR, .ROL, .ROR]

def writersOfC : List Mnemonic :=
  [.ADC, .SBC, .CMP, .CPX, .CPY, .ASL, .LSR, .ROL, .ROR, .CLC, .SEC, .PLP, .RTI]

def writersOfZN : List Mnemonic := callsSetZN ++ [.BIT, .PLP, .RTI]
def writersOfI : List Mnemonic := [.SEI, .CLI, .PLP, .RTI, .BRK]
def writersOfD : List Mnemonic := [.SED, .CLD, .PLP, .RTI]
def writersOfV : List Mnemonic := [.ADC, .SBC, .BIT, .CLV, .PLP, .RTI]
def writersOfSp : List Mnemonic := [.TXS, .PHA, .PHP, .PLA, .PLP, .JSR, .RTS, .RTI, .BRK]

end Sys2Proof.Claims

open Sys2Proof Sys2Proof.Machine Sys2Proof.Claims

/-! # Encoding -/

/-- 30_encoding.md R120 to R124: the encoding of every well-formed instruction, every operand at every value, decodes
back to it, and the decoder takes exactly its bytes. -/
def Obligations.DecodeEncodeRoundTrip : Prop :=
  ∀ (i : Instr) (rest : List Byte), i.wf = true → decode (encode i ++ rest) = .ok (i, rest)

/-- 30_encoding.md R130: "The decoder is total on any three bytes": it answers a well-formed instruction of length 1, 2
or 3, which is what those bytes encode, and the bytes after it. -/
def Obligations.DecoderIsTotal : Prop :=
  ∀ (op b1 b2 : Byte) (tail : List Byte), ∃ (i : Instr) (rest : List Byte),
    decode (op :: b1 :: b2 :: tail) = .ok (i, rest) ∧ i.wf = true ∧ (i.length = 1 ∨ i.length = 2 ∨ i.length = 3) ∧
      encode i ++ rest = op :: b1 :: b2 :: tail

/-- 30_encoding.md R128, 44_cpu_undefined.md R241: an opcode byte decodes as the one-byte instruction UND exactly when
it is one of the 105 listed bytes; the other 151 never do. -/
def Obligations.UndefinedBytesDecodeToUnd : Prop :=
  undefinedOpcodes.length = 105 ∧ undefinedOpcodes.Nodup ∧
    ∀ (op b1 b2 : Byte), (decodeBytes op b1 b2 = .und op ↔ op ∈ undefinedOpcodes) ∧
      ((decodeBytes op b1 b2).form.1 = .UND ↔ op ∈ undefinedOpcodes) ∧ (op ∈ undefinedOpcodes → instrLength op = 1)

/-- The examples of the assembler table 30_encoding.md R131, byte for byte, and one word of each further kind from the
matrix R124. (That a list of bytes which is too short is refused by name, the last two clauses, is the model's choice,
log entry 17.) -/
def Obligations.SpecWordsDecode : Prop :=
  decode [0x18] = .ok (.clc, []) ∧ decode [0x0A] = .ok (.aslAcc, []) ∧ decode [0xA9, 0x10] = .ok (.ldaImm 0x10, []) ∧
  decode [0xA5, 0x10] = .ok (.ldaZp 0x10, []) ∧ decode [0xB5, 0x10] = .ok (.ldaZpx 0x10, []) ∧
  decode [0xB6, 0x10] = .ok (.ldxZpy 0x10, []) ∧ decode [0xAD, 0x34, 0x12] = .ok (.ldaAbs 0x1234, []) ∧
  decode [0xBD, 0x34, 0x12] = .ok (.ldaAbx 0x1234, []) ∧ decode [0xB9, 0x34, 0x12] = .ok (.ldaAby 0x1234, []) ∧
  decode [0x6C, 0x34, 0x12] = .ok (.jmpInd 0x1234, []) ∧ decode [0xA1, 0x10] = .ok (.ldaIzx 0x10, []) ∧
  decode [0xB1, 0x10] = .ok (.ldaIzy 0x10, []) ∧ decode [0xD0, 0xFB] = .ok (.bneRel 0xFB, []) ∧
  decode [0x02] = .ok (.und 0x02, []) ∧ decode [] = .error .noOpcode ∧ decode [0x4C, 0x00] = .error (.truncated 0x4C)

/-! # The machine cycle, fetching, interrupts -/

/-- 40_cpu_step_addressing.md R141: at an instruction boundary with no interrupt to take, when the bytes at PC lie in
memory and decode to `i`, a step runs `i` with PC at the next instruction (R143), and the cycle ends
(70_reset_and_hazards.md R452, `afterCycle`). `atTick s` is `s` after the three dots and the counting of the tick. That
`afterCycle` counts the cycle in its frame step, and that the completing step makes the audio of R457, is the model's
choice, log entry 9. -/
def Obligations.StepRunsDecodedInstruction : Prop :=
  ∀ (s t : State) (i : Instr) (rest : List Byte),
    (atTick s).cpu.wait = 0 → (atTick s).cpu.pendNMI = false →
    ((atTick s).cpu.pendIRQ = false ∨ (atTick s).cpu.flags.i = true) →
    (∀ k, k < i.length → isMemory ((atTick s).cpu.pc + BitVec.ofNat 16 k) = true) →
    decode [byteAt (atTick s) (atTick s).cpu.pc, byteAt (atTick s) ((atTick s).cpu.pc + 1),
      byteAt (atTick s) ((atTick s).cpu.pc + 2)] = .ok (i, rest) →
    exec i ((atTick s).setPc ((atTick s).cpu.pc + BitVec.ofNat 16 i.length)) = .next t →
    step s = .next (afterCycle t)

/-- 40_cpu_step_addressing.md R143, 20_memory.md R116: fetching an instruction advances PC by its length modulo 65536,
whatever lies at PC; it answers a well-formed instruction whose encoding is the bytes read, in rising order; and
outside PC it changes only what reads of those addresses change. -/
def Obligations.FetchReadsTheInstruction : Prop :=
  ∀ s : State,
    let i := (fetchInstr s).1
    let t := (fetchInstr s).2
    i.wf = true ∧ t.cpu = { s.cpu with pc := s.cpu.pc + BitVec.ofNat 16 i.length } ∧
      encode i = (let s1 := (cpuRead s.cpu.pc s).2
                  let s2 := (cpuRead (s.cpu.pc + 1) s1).2
                  [byteAt s s.cpu.pc, byteAt s1 (s.cpu.pc + 1), byteAt s2 (s.cpu.pc + 2)].take i.length) ∧
      MemoryKept s t ∧ RestKept s t ∧
      t = onlyCpu (readsFrom i.length s.cpu.pc s) t.cpu ∧
      ((∀ k, k < i.length → hasReadEffect (s.cpu.pc + BitVec.ofNat 16 k) = false) → t = onlyCpu s t.cpu)

/-- 40_cpu_step_addressing.md R140, 70_reset_and_hazards.md R452: what every machine cycle does before the CPU acts, and
the whole of a cycle whose CPU tick is idle: one idle tick fewer is owed, the tick is counted, the interrupt input is
sampled, the audio unit advances once; no register, flag or memory changes. The cycle is also counted in its frame step:
the count `frameCycle`, which `atTick` keeps and `afterCycle` advances, and the audio of R457 in the step that completes
it, are the model's choice, log entry 9. -/
def Obligations.IdleTick : Prop :=
  ∀ s : State,
    (atTick s).cpu = { s.cpu with
      cyc := s.cpu.cyc + 1, pendIRQ := s.cpu.pendIRQ || s.cfg.irqIn.contains (s.cpu.cyc + 1),
      pendNMI := (atTick s).cpu.pendNMI } ∧
    IdleFrame s (atTick s) ∧ (atTick s).apu = s.apu ∧ (atTick s).frameCycle = s.frameCycle ∧
    (0 < s.cpu.wait → ∃ t, step s = .next (afterCycle t) ∧
      t = onlyCpu (atTick s) { (atTick s).cpu with wait := s.cpu.wait - 1 } ∧
      IdleFrame s (afterCycle t) ∧ MemoryKept s (afterCycle t) ∧ (afterCycle t).cpu = t.cpu ∧
      (afterCycle t).ppu = (atTick s).ppu)

/-- 60_exceptions.md R405, R410, R411, 40_cpu_step_addressing.md R141: at a boundary with the NMI latched, whatever I
and the IRQ latch hold, the step is the NMI entry: three bytes pushed, bit 4 of the status byte 0, I set, PC from
0xFFFA, the latch cleared, the IRQ latch kept, 7 cycles. (The end of the cycle, `afterCycle`, holds the model's count of
the frame step, log entry 9.) -/
def Obligations.NmiEntry : Prop :=
  ∀ s : State, s.ram.wf = true → (atTick s).cpu.wait = 0 → (atTick s).cpu.pendNMI = true →
    ∃ t, step s = .next (afterCycle t) ∧ EntryEffect .nmi (atTick s) t ∧
      (byteAt t (stackAddr (s.cpu.sp - 2))).toNat = statusNumber false s.cpu.flags ∧
      t.cpu.pc = word (byteAt (atTick s) 0xFFFB) (byteAt (atTick s) 0xFFFA) ∧
      t.cpu.pendNMI = false ∧ t.cpu.pendIRQ = (atTick s).cpu.pendIRQ ∧ t.cpu.wait = 6 + (atTick s).cpu.dmaStall ∧
      t.cpu.dmaStall = 0

/-- 60_exceptions.md R404, R405, R410, R411, 40_cpu_step_addressing.md R141: at a boundary with no NMI, the IRQ latched
and I = 0, the step is the IRQ entry, through 0xFFFE; a latched IRQ outlives every step that begins with I = 1. (The end
of the cycle, `afterCycle`, holds the model's count of the frame step, log entry 9.) -/
def Obligations.IrqEntry : Prop :=
  (∀ s : State, s.ram.wf = true → (atTick s).cpu.wait = 0 → (atTick s).cpu.pendNMI = false →
    (atTick s).cpu.pendIRQ = true → s.cpu.flags.i = false →
    ∃ t, step s = .next (afterCycle t) ∧ EntryEffect .irq (atTick s) t ∧
      (byteAt t (stackAddr (s.cpu.sp - 2))).toNat = statusNumber false s.cpu.flags ∧
      t.cpu.pc = word (byteAt (atTick s) 0xFFFF) (byteAt (atTick s) 0xFFFE) ∧
      t.cpu.pendNMI = false ∧ t.cpu.pendIRQ = false ∧ t.cpu.wait = 6 + (atTick s).cpu.dmaStall ∧ t.cpu.dmaStall = 0) ∧
  ∀ s t : State, s.cpu.pendIRQ = true → s.cpu.flags.i = true → step s = .next t → t.cpu.pendIRQ = true

/-- 10_state.md R24: "No instruction reads or writes them": running any instruction with the latches at any values gives
the same outcome as with any others, the latches apart, which it leaves alone. -/
def Obligations.NoInstructionUsesTheLatches : Prop :=
  ∀ (i : Instr) (s : State) (nmi irq : Bool),
    exec i (withLatches nmi irq s) = withLatchesOut nmi irq (exec i s) ∧
      ∀ t, exec i s = .next t → t.cpu.pendNMI = s.cpu.pendNMI ∧ t.cpu.pendIRQ = s.cpu.pendIRQ

/-- 60_exceptions.md R400, R420: the machine has no synchronous fault and cannot jam: every instruction and every step,
from every state whatever, answers a next state. -/
def Obligations.EveryStepAnswers : Prop :=
  (∀ (i : Instr) (s : State), ∃ t, exec i s = .next t) ∧ ∀ s : State, ∃ t, step s = .next t

/-! # Invariants and whole-machine rules -/

/-- 10_state.md R56, 70_reset_and_hazards.md R461: the power-on state of every configuration with a sequencer period and
a frame step of at least one cycle meets the invariant `Inv`; so does every machine that `construct` makes with such
parameters, and the reset state, which is the power-on state of the blank cartridge (log entry 1). -/
def Obligations.ResetMeetsInvariant : Prop :=
  (∀ cfg : Config, 0 < cfg.params.qfPeriod → 0 < cfg.params.cyclesPerFrame → Inv (powerOnState cfg)) ∧
  (∀ (p : Params) (irq : List Nat) (r : CartRecord) (t : State), 0 < p.qfPeriod → 0 < p.cyclesPerFrame →
    construct p irq r = .next t → Inv t) ∧
  State.reset = powerOnState blankConfig ∧ Inv State.reset

/-- Every step keeps the invariant `Inv`: memories canonical and inside their sizes, the picture position one of 262 x 341
dots, sprite buffers of at most eight rising indices, every audio frequency the one its period gives, phases in [0, 1),
the noise register never 0, the sequencer inside its period, the mapper's shift register short of five bits, memory the
cartridge lacks empty, no stall left over (10_state.md R25 to R53), the frame step short of its last cycle (log entry
9). -/
def Obligations.StepKeepsInvariant : Prop :=
  ∀ s t : State, Inv s → step s = .next t → Inv t

/-- 70_reset_and_hazards.md R452, R455 to R461, 46_apu.md R338, R339, 93_implementation_defined.md U13: in the middle of a
frame step the host's operations and reads are refused; between frame steps, in a state that meets the invariant, every
operation answers, leaves the machine between frame steps and keeps the invariant; the reads give the framebuffer, work
RAM and the samples, and `get_and_clear_buffer` also empties the buffer and changes nothing else. The effect of every
operation between frame steps: reset, backup and restore are the three functions of that name; `set_buttons` puts the
byte in its port; a write through `memory()` puts the byte in its cell of work RAM and in no other; `set_master_volume`
limits the volume to [0, 1]; `set_audio_enabled` puts the switch; each leaves all else as it is. (The frame step itself is
FrameStepClock. That a frame step's progress is the count `frameCycle` in State is log entry 9.) -/
def Obligations.HostOperationsKeepInvariant : Prop :=
  (∀ (op : HostOp) (s : State), s.frameCycle ≠ 0 → hostStep op s = .refused .midFrameStep) ∧
  (∀ (op : HostOp) (s t : State), Inv s → hostStep op s = .next t → Inv t ∧ t.frameCycle = 0) ∧
  (∀ (op : HostOp) (s : State), Inv s → s.frameCycle = 0 → ∃ t, hostStep op s = .next t) ∧
  (∀ s : State, s.frameCycle = 0 →
    hostStep .reset s = .next (hostReset s) ∧ hostStep .backup s = .next (backup s) ∧
    hostStep .restore s = .next (restore s) ∧
    hostStep .clearBuffer s = .next { s with apu := { s.apu with samples := [] } } ∧
    (∀ b : Byte, hostStep (.setButtons false b) s = .next { s with buttons0 := b } ∧
      hostStep (.setButtons true b) s = .next { s with buttons1 := b }) ∧
    (∀ (k : BitVec 11) (b : Byte),
      hostStep (.pokeMemory k b) s = .next { s with ram := s.ram.write k.toNat b } ∧
      (s.ram.wf = true → ∀ j : Nat, (s.ram.write k.toNat b).read j = if j = k.toNat then b else s.ram.read j)) ∧
    (∀ q : Rat, hostStep (.setMasterVolume q) s =
      .next { s with apu := { s.apu with master := if q < 0 then 0 else if 1 < q then 1 else q } }) ∧
    ∀ on : Bool, hostStep (.setAudioEnabled on) s = .next { s with apu := { s.apu with audioEnabled := on } }) ∧
  ∀ (s : State) (y : Fin 240) (x : Fin 256) (k : BitVec 11),
    (s.frameCycle ≠ 0 → framebufferCell s y x = .error .midFrameStep ∧ memoryByte s k = .error .midFrameStep ∧
      audioView s = .error .midFrameStep ∧ getAndClearBuffer s = .error .midFrameStep) ∧
    (s.frameCycle = 0 → framebufferCell s y x = .ok (s.ppu.fb.read (256 * y.val + x.val)) ∧
      memoryByte s k = .ok (s.ram.read k.toNat) ∧ audioView s = .ok s.apu.samples ∧
      ∃ t, getAndClearBuffer s = .ok (s.apu.samples, t) ∧ t = { s with apu := { s.apu with samples := [] } } ∧
        audioView t = .ok [] ∧ getAndClearBuffer t = .ok ([], t))

/-- 10_state.md R57, R55, R28, 46_apu.md R300, R339, 70_reset_and_hazards.md R457: a step never changes the cartridge or
any parameter, the snapshot, the host's button bytes, the volume or the audio switch; it changes the sample buffer and
the filter memory only where it ends a frame step with audio enabled. The step that ends a frame step is known by the
model's own count `frameCycle`, and that this step makes the audio of the frame is the model's choice: log entry 9. -/
def Obligations.StepLeavesHostState : Prop :=
  ∀ s t : State, step s = .next t →
    t.cfg = s.cfg ∧ t.snap = s.snap ∧ t.buttons0 = s.buttons0 ∧ t.buttons1 = s.buttons1 ∧
      t.apu.master = s.apu.master ∧ t.apu.audioEnabled = s.apu.audioEnabled ∧
      (s.frameCycle + 1 < s.cfg.params.cyclesPerFrame ∨ s.apu.audioEnabled = false →
        t.apu.samples = s.apu.samples ∧ t.apu.yPrev = s.apu.yPrev)

/-- 70_reset_and_hazards.md R457, R452, 45_ppu.md R260: between frame steps a frame step is CYCLES_PER_FRAME machine cycles
and then the audio of the frame, when it is enabled: the tick counter grows by that number, the picture unit stands
three dots further on for each, modulo the frame of 89342 dots, and the machine is between frame steps again. Between
frame steps means `frameCycle` = 0: that count, which `machineCycles` advances and the frame step takes back to 0, is the
model's own, log entry 9. -/
def Obligations.FrameStepClock : Prop :=
  ∀ s : State, Inv s → s.frameCycle = 0 → ∃ u t, machineCycles s.cfg.params.cyclesPerFrame s = .next u ∧
    hostStep .frameStep s = .next t ∧ t = withAudio { u with frameCycle := 0 } ∧
    t.cpu.cyc = s.cpu.cyc + s.cfg.params.cyclesPerFrame ∧
    dotIndex t.ppu = (dotIndex s.ppu + 3 * s.cfg.params.cyclesPerFrame) % 89342 ∧ t.frameCycle = 0

/-- 10_state.md R23, R21: who may change a flag or the stack pointer. If an instruction changes C, it is one of the
writers of C in the table; likewise Z and N, I, D, V and SP. -/
def Obligations.FlagAndStackWriters : Prop :=
  ∀ (i : Instr) (s t : State), exec i s = .next t →
    (t.cpu.flags.c ≠ s.cpu.flags.c → i.form.1 ∈ writersOfC) ∧
    (t.cpu.flags.z ≠ s.cpu.flags.z → i.form.1 ∈ writersOfZN) ∧
    (t.cpu.flags.n ≠ s.cpu.flags.n → i.form.1 ∈ writersOfZN) ∧
    (t.cpu.flags.i ≠ s.cpu.flags.i → i.form.1 ∈ writersOfI) ∧
    (t.cpu.flags.d ≠ s.cpu.flags.d → i.form.1 ∈ writersOfD) ∧
    (t.cpu.flags.v ≠ s.cpu.flags.v → i.form.1 ∈ writersOfV) ∧
    (t.cpu.sp ≠ s.cpu.sp → i.form.1 ∈ writersOfSp)

/-! # Addressing modes -/

/-- 40_cpu_step_addressing.md R147 to R154: the effective address of each mode, in numbers: page-0 sums wrap modulo 256,
pointers take both bytes from page 0, 16-bit sums wrap modulo 65536. -/
def Obligations.EffectiveAddresses : Prop :=
  ∀ (s : State) (z : Byte) (a : Word),
    (effAddr (.zp z) s).toNat = z.toNat ∧
    (effAddr (.zpx z) s).toNat = (z.toNat + s.cpu.x.toNat) % 256 ∧
    (effAddr (.zpy z) s).toNat = (z.toNat + s.cpu.y.toNat) % 256 ∧
    effAddr (.abs a) s = a ∧
    (effAddr (.abx a) s).toNat = (a.toNat + s.cpu.x.toNat) % 65536 ∧
    (effAddr (.aby a) s).toNat = (a.toNat + s.cpu.y.toNat) % 65536 ∧
    (effAddr (.izx z) s).toNat =
      (s.ram.read ((z.toNat + s.cpu.x.toNat) % 256)).toNat +
        256 * (s.ram.read ((z.toNat + s.cpu.x.toNat + 1) % 256)).toNat ∧
    (effAddr (.izy z) s).toNat =
      ((s.ram.read z.toNat).toNat + 256 * (s.ram.read ((z.toNat + 1) % 256)).toNat + s.cpu.y.toNat) % 65536

/-! # Loads, stores, transfers, stack -/

/-- 41_cpu_load_store.md R170: LDA in its eight modes. A takes the operand, Z and N follow it, every other register and
flag keeps its value; all memory reads as before; the only change outside the CPU is the side effect of the one read. -/
def Obligations.LoadAccumulator : Prop :=
  ∀ (b z : Byte) (a : Word), ∀ r ∈ ldaRows b z a, ∀ s : State,
    r.encoded .LDA ∧ ∃ t, exec r.instr s = .next t ∧
      t.cpu = ended (r.ticks s) { s.cpu with a := r.value s, flags := flagsZN (r.value s) s.cpu.flags } ∧
      ReadFrame (r.addr s) s t ∧ t = onlyCpu (r.after s) t.cpu

/-- 41_cpu_load_store.md R171, R172: LDX in its five modes and LDY in its five. -/
def Obligations.LoadIndexRegisters : Prop :=
  ∀ (b z : Byte) (a : Word) (s : State),
    (∀ r ∈ ldxRows b z a, r.encoded .LDX ∧ ∃ t, exec r.instr s = .next t ∧
      t.cpu = ended (r.ticks s) { s.cpu with x := r.value s, flags := flagsZN (r.value s) s.cpu.flags } ∧
      ReadFrame (r.addr s) s t ∧ t = onlyCpu (r.after s) t.cpu) ∧
    (∀ r ∈ ldyRows b z a, r.encoded .LDY ∧ ∃ t, exec r.instr s = .next t ∧
      t.cpu = ended (r.ticks s) { s.cpu with y := r.value s, flags := flagsZN (r.value s) s.cpu.flags } ∧
      ReadFrame (r.addr s) s t ∧ t = onlyCpu (r.after s) t.cpu)

/-- 41_cpu_load_store.md R173 to R175: STA in its seven modes, STX and STY in their three. One write of the register at
the effective address and no read; no register and no flag changes; an OAM DMA lengthens the instruction; every byte of
memory outside the stored byte reads as before (a write of the ROM window changes no ROM byte, only bank registers). -/
def Obligations.StoreRegisters : Prop :=
  ∀ (z : Byte) (a : Word) (s : State), s.ram.wf = true → s.prgRam.wf = true →
    (∀ r ∈ staRows z a, r.encoded .STA ∧ ∃ t, exec r.instr s = .next t ∧
      t.cpu = ended r.cycles { s.cpu with dmaStall := s.cpu.dmaStall + dmaTicks (effAddr r.mode s) s } ∧
      WriteFrame (effAddr r.mode s) s.cpu.a s t ∧ t = onlyCpu (cpuWrite (effAddr r.mode s) s.cpu.a s) t.cpu) ∧
    (∀ r ∈ stxRows z a, r.encoded .STX ∧ ∃ t, exec r.instr s = .next t ∧
      t.cpu = ended r.cycles { s.cpu with dmaStall := s.cpu.dmaStall + dmaTicks (effAddr r.mode s) s } ∧
      WriteFrame (effAddr r.mode s) s.cpu.x s t ∧ t = onlyCpu (cpuWrite (effAddr r.mode s) s.cpu.x s) t.cpu) ∧
    (∀ r ∈ styRows z a, r.encoded .STY ∧ ∃ t, exec r.instr s = .next t ∧
      t.cpu = ended r.cycles { s.cpu with dmaStall := s.cpu.dmaStall + dmaTicks (effAddr r.mode s) s } ∧
      WriteFrame (effAddr r.mode s) s.cpu.y s t ∧ t = onlyCpu (cpuWrite (effAddr r.mode s) s.cpu.y s) t.cpu)

/-- 41_cpu_load_store.md R176 to R181: TAX, TAY, TXA, TYA, TSX write Z and N; TXS writes no flag. Nothing outside the CPU
changes. -/
def Obligations.RegisterTransfers : Prop :=
  ∀ r ∈ transferRows, ∀ s : State,
    encode r.instr = [r.opcode] ∧ r.instr.form = (r.mnemonic, .imp) ∧ ∃ t, exec r.instr s = .next t ∧
      t = onlyCpu s (ended 2 { r.put (r.from_ s.cpu) s.cpu with
        flags := if r.setsZN then flagsZN (r.from_ s.cpu) s.cpu.flags else s.cpu.flags }) ∧ MemoryKept s t

/-- 41_cpu_load_store.md R182, R183: PHA and PHP store one byte in the stack slot SP names, then SP goes down by one
modulo 256; PHP's byte has bits 5 and 4 set; no flag and no other byte of memory changes. -/
def Obligations.StackPushes : Prop :=
  ∀ s : State, s.ram.wf = true →
    (encode .pha = [0x48] ∧ ∃ t, exec .pha s = .next t ∧ t.cpu = ended 3 { s.cpu with sp := s.cpu.sp - 1 } ∧
      byteAt t (stackAddr s.cpu.sp) = s.cpu.a ∧ MemoryKeptOffStack 1 s t ∧ UnitsKept s t) ∧
    (encode .php = [0x08] ∧ ∃ t, exec .php s = .next t ∧ t.cpu = ended 3 { s.cpu with sp := s.cpu.sp - 1 } ∧
      (byteAt t (stackAddr s.cpu.sp)).toNat = statusNumber true s.cpu.flags ∧ MemoryKeptOffStack 1 s t ∧ UnitsKept s t)

/-- 41_cpu_load_store.md R184, R185: PLA and PLP read the slot above SP and move SP up by one modulo 256; PLA sets A, Z
and N, PLP all six flags, ignoring bits 5 and 4. Nothing outside the CPU changes. -/
def Obligations.StackPulls : Prop :=
  ∀ s : State,
    (encode .pla = [0x68] ∧ ∃ t, exec .pla s = .next t ∧
      t = onlyCpu s (ended 4 { s.cpu with
        a := byteAt s (stackAddr (s.cpu.sp + 1)), sp := s.cpu.sp + 1,
        flags := flagsZN (byteAt s (stackAddr (s.cpu.sp + 1))) s.cpu.flags }) ∧ MemoryKept s t) ∧
    (encode .plp = [0x28] ∧ ∃ t, exec .plp s = .next t ∧
      t = onlyCpu s (ended 4 { s.cpu with
        sp := s.cpu.sp + 1, flags := flagsOf (byteAt s (stackAddr (s.cpu.sp + 1))) }) ∧ MemoryKept s t)

/-! # Arithmetic and logic -/

/-- 42_cpu_arith_logic.md R190, R209: ADC in its eight modes. A takes the sum with carry modulo 256; C is the unsigned
carry out; V is 1 exactly when the signed sum is outside -128 to 127, and is the formula of the rule; Z and N follow the
result; I and D keep their values, and D plays no part. -/
def Obligations.AddWithCarry : Prop :=
  ∀ (b z : Byte) (a : Word), ∀ r ∈ adcRows b z a, ∀ s : State,
    let m := r.value s
    let sum := s.cpu.a.toNat + m.toNat + s.cpu.flags.c.toNat
    let res : Byte := BitVec.ofNat 8 sum
    let signed : Int := s8 s.cpu.a + s8 m + s.cpu.flags.c.toNat
    let v := decide (signed < -128 ∨ 127 < signed)
    r.encoded .ADC ∧ v = decide ((s.cpu.a ^^^ res) &&& (m ^^^ res) &&& 0x80 ≠ 0) ∧ ∃ t, exec r.instr s = .next t ∧
      t.cpu = ended (r.ticks s) { s.cpu with
        a := res, flags := flagsZN res { s.cpu.flags with c := decide (255 < sum), v := v } } ∧
      ReadFrame (r.addr s) s t ∧ t = onlyCpu (r.after s) t.cpu

/-- 42_cpu_arith_logic.md R191, R209: SBC in its eight modes. A takes A - m - (1 - C) modulo 256; C is 1 exactly when no
borrow occurred; V is 1 exactly when the signed difference is outside -128 to 127, and is the formula of the rule. -/
def Obligations.SubtractWithBorrow : Prop :=
  ∀ (b z : Byte) (a : Word), ∀ r ∈ sbcRows b z a, ∀ s : State,
    let m := r.value s
    let diff : Int := s.cpu.a.toNat - m.toNat - (1 - s.cpu.flags.c.toNat)
    let res : Byte := BitVec.ofInt 8 diff
    let signed : Int := s8 s.cpu.a - s8 m - (1 - s.cpu.flags.c.toNat)
    let v := decide (signed < -128 ∨ 127 < signed)
    r.encoded .SBC ∧ v = decide ((s.cpu.a ^^^ res) &&& ((m ^^^ 0xFF) ^^^ res) &&& 0x80 ≠ 0) ∧
    ∃ t, exec r.instr s = .next t ∧
      t.cpu = ended (r.ticks s) { s.cpu with
        a := res, flags := flagsZN res { s.cpu.flags with c := decide (0 ≤ diff), v := v } } ∧
      ReadFrame (r.addr s) s t ∧ t = onlyCpu (r.after s) t.cpu

/-- 42_cpu_arith_logic.md R192 to R194: AND, ORA, EOR in their eight modes each; Z and N follow A, the other flags keep
their values. -/
def Obligations.LogicOperations : Prop :=
  ∀ (b z : Byte) (a : Word) (s : State),
    (∀ r ∈ andRows b z a, r.encoded .AND ∧ ∃ t, exec r.instr s = .next t ∧
      t.cpu = ended (r.ticks s) { s.cpu with
        a := s.cpu.a &&& r.value s, flags := flagsZN (s.cpu.a &&& r.value s) s.cpu.flags } ∧
      ReadFrame (r.addr s) s t ∧ t = onlyCpu (r.after s) t.cpu) ∧
    (∀ r ∈ oraRows b z a, r.encoded .ORA ∧ ∃ t, exec r.instr s = .next t ∧
      t.cpu = ended (r.ticks s) { s.cpu with
        a := s.cpu.a ||| r.value s, flags := flagsZN (s.cpu.a ||| r.value s) s.cpu.flags } ∧
      ReadFrame (r.addr s) s t ∧ t = onlyCpu (r.after s) t.cpu) ∧
    (∀ r ∈ eorRows b z a, r.encoded .EOR ∧ ∃ t, exec r.instr s = .next t ∧
      t.cpu = ended (r.ticks s) { s.cpu with
        a := s.cpu.a ^^^ r.value s, flags := flagsZN (s.cpu.a ^^^ r.value s) s.cpu.flags } ∧
      ReadFrame (r.addr s) s t ∧ t = onlyCpu (r.after s) t.cpu)

/-- 42_cpu_arith_logic.md R198: BIT in its two modes: Z from the AND with A, N and V bits 7 and 6 of the byte read; A, the
other registers and the other flags keep their values. -/
def Obligations.BitTest : Prop :=
  ∀ (z : Byte) (a : Word), ∀ r ∈ bitRows z a, ∀ s : State,
    r.encoded .BIT ∧ ∃ t, exec r.instr s = .next t ∧
      t.cpu = ended (r.ticks s) { s.cpu with flags := { s.cpu.flags with
        z := decide (s.cpu.a &&& r.value s = 0), n := decide (128 ≤ (r.value s).toNat),
        v := decide (64 ≤ (r.value s).toNat % 128) } } ∧
      ReadFrame (r.addr s) s t ∧ t = onlyCpu (r.after s) t.cpu

/-- 42_cpu_arith_logic.md R195 to R197: CMP in its eight modes, CPX and CPY in their three: C is 1 when the register is at
least the operand, unsigned; Z when they are equal; N is bit 7 of the difference modulo 256; no register changes, and V,
I, D keep their values. -/
def Obligations.Compares : Prop :=
  ∀ (b z : Byte) (a : Word) (s : State),
    (∀ r ∈ cmpRows b z a, r.encoded .CMP ∧ ∃ t, exec r.instr s = .next t ∧
      t.cpu = ended (r.ticks s) { s.cpu with flags := { s.cpu.flags with
        c := decide ((r.value s).toNat ≤ s.cpu.a.toNat), z := decide (s.cpu.a = r.value s),
        n := decide (128 ≤ (256 + s.cpu.a.toNat - (r.value s).toNat) % 256) } } ∧
      ReadFrame (r.addr s) s t ∧ t = onlyCpu (r.after s) t.cpu) ∧
    (∀ r ∈ cpxRows b z a, r.encoded .CPX ∧ ∃ t, exec r.instr s = .next t ∧
      t.cpu = ended (r.ticks s) { s.cpu with flags := { s.cpu.flags with
        c := decide ((r.value s).toNat ≤ s.cpu.x.toNat), z := decide (s.cpu.x = r.value s),
        n := decide (128 ≤ (256 + s.cpu.x.toNat - (r.value s).toNat) % 256) } } ∧
      ReadFrame (r.addr s) s t ∧ t = onlyCpu (r.after s) t.cpu) ∧
    (∀ r ∈ cpyRows b z a, r.encoded .CPY ∧ ∃ t, exec r.instr s = .next t ∧
      t.cpu = ended (r.ticks s) { s.cpu with flags := { s.cpu.flags with
        c := decide ((r.value s).toNat ≤ s.cpu.y.toNat), z := decide (s.cpu.y = r.value s),
        n := decide (128 ≤ (256 + s.cpu.y.toNat - (r.value s).toNat) % 256) } } ∧
      ReadFrame (r.addr s) s t ∧ t = onlyCpu (r.after s) t.cpu)

/-- 42_cpu_arith_logic.md R199, R200: INC and DEC in their four memory modes: one read and one write of the effective
address, the byte up or down by one modulo 256; Z and N follow it; C, V, I, D and every register keep their values. -/
def Obligations.IncrementDecrementMemory : Prop :=
  ∀ (z : Byte) (a : Word) (s : State), s.ram.wf = true → s.prgRam.wf = true →
    (∀ r ∈ incRows z a,
      let res : Byte := BitVec.ofNat 8 ((byteAt s (effAddr r.mode s)).toNat + 1)
      r.encoded .INC ∧ ∃ t, exec r.instr s = .next t ∧
        RmwEffect (effAddr r.mode s) res (flagsZN res s.cpu.flags) r.cycles s t) ∧
    (∀ r ∈ decRows z a,
      let res : Byte := BitVec.ofNat 8 ((byteAt s (effAddr r.mode s)).toNat + 255)
      r.encoded .DEC ∧ ∃ t, exec r.instr s = .next t ∧
        RmwEffect (effAddr r.mode s) res (flagsZN res s.cpu.flags) r.cycles s t)

/-- 42_cpu_arith_logic.md R201 to R204: INX, INY, DEX, DEY: the register up or down by one modulo 256, Z and N follow it;
nothing else changes. -/
def Obligations.IncrementDecrementRegisters : Prop :=
  ∀ r ∈ stepRows, ∀ s : State,
    let res : Byte := BitVec.ofNat 8 ((r.from_ s.cpu).toNat + r.step)
    encode r.instr = [r.opcode] ∧ r.instr.form = (r.mnemonic, .imp) ∧ ∃ t, exec r.instr s = .next t ∧
      t = onlyCpu s (ended 2 { r.put res s.cpu with flags := flagsZN res s.cpu.flags }) ∧ MemoryKept s t

/-- 42_cpu_arith_logic.md R205 to R208: ASL, LSR, ROL, ROR on the accumulator and in their four memory modes, in numbers:
the operand doubled or halved, the old carry rotated in, the bit moved out in C, Z and N from the result. -/
def Obligations.ShiftsAndRotates : Prop :=
  (∀ r ∈ shiftAccRows, ∀ s : State,
    encode r.1 = [r.2.2.1] ∧ r.1.form = (r.2.1, .acc) ∧ ∃ t, exec r.1 s = .next t ∧
      t = onlyCpu s (ended 2 { s.cpu with
        a := r.2.2.2.byte s.cpu.a s.cpu.flags, flags := r.2.2.2.flags s.cpu.a s.cpu.flags }) ∧ MemoryKept s t) ∧
  ∀ (z : Byte) (a : Word) (s : State), s.ram.wf = true → s.prgRam.wf = true →
    ∀ r ∈ shiftMemRows z a,
      let ea := effAddr r.1.mode s
      r.1.encoded r.2.1 ∧ ∃ t, exec r.1.instr s = .next t ∧
        RmwEffect ea (r.2.2.byte (byteAt s ea) s.cpu.flags) (r.2.2.flags (byteAt s ea) s.cpu.flags) r.1.cycles s t

/-! # Control flow -/

/-- 43_cpu_control.md R215, R216: JMP absolute makes no data access; JMP indirect reads the pointer's low byte, then its
high byte from the same page; no flag changes. -/
def Obligations.Jumps : Prop :=
  ∀ (s : State) (p : Word),
    (encode (.jmpAbs p) = [0x4C, loByte p, hiByte p] ∧
      ∃ t, exec (.jmpAbs p) s = .next t ∧ t = onlyCpu s (ended 3 { s.cpu with pc := p }) ∧ MemoryKept s t) ∧
    (let hiAddr : Word := BitVec.ofNat 16 (256 * (p.toNat / 256) + (p.toNat + 1) % 256)
     let s1 := (cpuRead p s).2
     let s2 := (cpuRead hiAddr s1).2
     encode (.jmpInd p) = [0x6C, loByte p, hiByte p] ∧
      ∃ t, exec (.jmpInd p) s = .next t ∧
        t = onlyCpu s2 (ended 5 { s.cpu with pc := word (byteAt s1 hiAddr) (byteAt s p) }) ∧
        MemoryKept s t ∧ RestKept s t ∧
        (hasReadEffect p = false → hasReadEffect hiAddr = false → t.ppu = s.ppu ∧ t.pads = s.pads))

/-- 43_cpu_control.md R217: JSR pushes the address of its own last byte, high byte first, and jumps; no flag changes. -/
def Obligations.SubroutineCall : Prop :=
  ∀ (s : State) (a : Word), s.ram.wf = true →
    encode (.jsrAbs a) = [0x20, loByte a, hiByte a] ∧
    ∃ t, exec (.jsrAbs a) s = .next t ∧ t.cpu = ended 6 { s.cpu with pc := a, sp := s.cpu.sp - 2 } ∧
      (byteAt t (stackAddr s.cpu.sp)).toNat = ((s.cpu.pc.toNat + 65535) % 65536) / 256 ∧
      (byteAt t (stackAddr (s.cpu.sp - 1))).toNat = (s.cpu.pc.toNat + 65535) % 256 ∧
      MemoryKeptOffStack 2 s t ∧ UnitsKept s t

/-- 43_cpu_control.md R218, R219, 60_exceptions.md R412: RTS pulls two bytes and goes one past them; RTI pulls the status
byte into the six flags, then PC, without adjustment. Nothing outside the CPU changes. -/
def Obligations.Returns : Prop :=
  ∀ s : State,
    (encode .rts = [0x60] ∧ ∃ t, exec .rts s = .next t ∧
      t = onlyCpu s (ended 6 { s.cpu with
        sp := s.cpu.sp + 2
        pc := word (byteAt s (stackAddr (s.cpu.sp + 2))) (byteAt s (stackAddr (s.cpu.sp + 1))) + 1 }) ∧
      MemoryKept s t) ∧
    (encode .rti = [0x40] ∧ ∃ t, exec .rti s = .next t ∧
      t = onlyCpu s (ended 6 { s.cpu with
        sp := s.cpu.sp + 3, flags := flagsOf (byteAt s (stackAddr (s.cpu.sp + 1)))
        pc := word (byteAt s (stackAddr (s.cpu.sp + 3))) (byteAt s (stackAddr (s.cpu.sp + 2))) }) ∧ MemoryKept s t)

/-- 43_cpu_control.md R220, 60_exceptions.md R410, R411: BRK skips one byte, pushes that address and the status with bit 4
set, sets I and goes through 0xFFFE; it ignores I and both latches. -/
def Obligations.BreakTrap : Prop :=
  ∀ s : State, s.ram.wf = true →
    encode .brk = [0x00] ∧ ∃ t, exec .brk s = .next t ∧ EntryEffect .brk (s.setPc (s.cpu.pc + 1)) t ∧
      (byteAt t (stackAddr (s.cpu.sp - 2))).toNat = statusNumber true s.cpu.flags ∧
      t.cpu.pc = word (byteAt s 0xFFFF) (byteAt s 0xFFFE) ∧ t.cpu.wait = 6 + s.cpu.dmaStall ∧ t.cpu.dmaStall = 0 ∧
      t.cpu.pendNMI = s.cpu.pendNMI ∧ t.cpu.pendIRQ = s.cpu.pendIRQ

/-- 43_cpu_control.md R221 to R229: the eight branches. Taken, PC moves by the signed displacement modulo 65536 and the
count is 3, or 4 when the target is on another page than the next instruction; not taken, PC stays and the count is 2.
Nothing else changes. -/
def Obligations.Branches : Prop :=
  ∀ d : Byte, ∀ r ∈ branchRows d, ∀ s : State,
    let target : Word := BitVec.ofInt 16 (s.cpu.pc.toNat + s8 d)
    let n := if r.taken s.cpu.flags then (if s.cpu.pc.toNat / 256 = target.toNat / 256 then 3 else 4) else 2
    encode r.instr = [r.opcode, d] ∧ r.instr.form = (r.mnemonic, .rel d) ∧ ∃ t, exec r.instr s = .next t ∧
      t = onlyCpu s (ended n { s.cpu with pc := if r.taken s.cpu.flags then target else s.cpu.pc }) ∧ MemoryKept s t

/-- 43_cpu_control.md R230 to R237, 44_cpu_undefined.md R240: the seven flag instructions write one flag, NOP and every
undefined opcode change no register, flag or memory; two cycles, or UNDEF_CYCLES. (The model's own mark `undSeen`, log
entry 5, is set by an undefined opcode; UNDEF_CYCLES = 0 acts as 1, log entry 14.) -/
def Obligations.FlagInstructionsAndNoOps : Prop :=
  (∀ r ∈ flagRows, ∀ s : State,
    encode r.1 = [r.2.2.1] ∧ r.1.form = (r.2.1, .imp) ∧ ∃ t, exec r.1 s = .next t ∧
      t = onlyCpu s (ended 2 { s.cpu with flags := r.2.2.2 s.cpu.flags }) ∧ MemoryKept s t) ∧
  ∀ (op : Byte) (s : State), encode (.und op) = [op] ∧ ∃ t, exec (.und op) s = .next t ∧
    t = { onlyCpu s (ended s.cfg.params.undefCycles s.cpu) with undSeen := true } ∧ MemoryKept s t

/-! # The CPU bus -/

/-- 20_memory.md R81: the complete list of CPU addresses whose read has a side effect, and what each does: 0x2002 + 8k
clears `vblank` and `w`; 0x2007 + 8k refills the buffer and advances v; 0x4016 and 0x4017 shift their port's register
unless the strobe is 1. Every other read changes nothing, so it is idempotent. -/
def Obligations.ReadSideEffects : Prop :=
  ∀ (a : Word) (s : State),
    (hasReadEffect a = false → (cpuRead a s).2 = s) ∧
    (0x2000 ≤ a → a < 0x4000 → a.toNat % 8 = 2 →
      (cpuRead a s).2 = { s with ppu := { s.ppu with vblank := false, w := false } }) ∧
    (0x2000 ≤ a → a < 0x4000 → a.toNat % 8 = 7 →
      (cpuRead a s).2 = { s with ppu := { s.ppu with
        v := s.ppu.v + (if s.ppu.ctrl.getLsbD 2 then 32 else 1)
        readBuf :=
          let p : Word := BitVec.ofNat 16 (s.ppu.v.toNat % 16384)
          ppuRead s (if p < 0x3F00 then p else p - 0x1000) } }) ∧
    (a = 0x4016 → (cpuRead a s).2 = if s.pads.strobe then s else
      { s with pads := { s.pads with shift0 := BitVec.ofNat 8 (s.pads.shift0.toNat / 2 + 128) } }) ∧
    (a = 0x4017 → (cpuRead a s).2 = if s.pads.strobe then s else
      { s with pads := { s.pads with shift1 := BitVec.ofNat 8 (s.pads.shift1.toNat / 2 + 128) } })

/-- 20_memory.md R71, R85 to R96: a write reaches the one unit its address decodes to: everything else keeps its value,
memory changes in the stored byte only, and the CPU sees nothing but the stall an OAM DMA asks for. -/
def Obligations.WriteReachesOneUnit : Prop :=
  ∀ (a : Word) (v : Byte) (s : State), s.ram.wf = true → s.prgRam.wf = true →
    WriteFrame a v s (cpuWrite a v s) ∧
      (cpuWrite a v s).cpu = { s.cpu with dmaStall := s.cpu.dmaStall + dmaTicks a s } ∧
      (0x4018 ≤ a → a < 0x6000 → cpuWrite a v s = s)

/-- 20_memory.md R72, R74, R77 to R79, R85, R92: the memory below the ROM window. Work RAM repeats four times below 0x2000:
a byte written at any of the four is read at all of them and at no other address of work RAM. The write-only and the
unmapped addresses read 0 with no effect. PRG RAM, where the cartridge has it, holds what is written; where it has
none, reads give 0 and writes do nothing. -/
def Obligations.CpuMemoryMap : Prop :=
  ∀ (a b : Word) (v : Byte) (s : State), s.ram.wf = true → s.prgRam.wf = true →
    (a < 0x2000 → cpuRead a s = (s.ram.read (a.toNat % 2048), s) ∧
      (b < 0x2000 → byteAt (cpuWrite a v s) b = if a.toNat % 2048 = b.toNat % 2048 then v else byteAt s b)) ∧
    (0x2000 ≤ a → a < 0x4000 → a.toNat % 8 ∈ [0, 1, 3, 5, 6] → cpuRead a s = (0, s)) ∧
    ((0x4000 ≤ a ∧ a < 0x4015) ∨ (0x4018 ≤ a ∧ a < 0x6000) → cpuRead a s = (0, s)) ∧
    (0x6000 ≤ a → a < 0x8000 → s.cfg.cart.hasPrgRam = true →
      cpuRead a s = (s.prgRam.read (a.toNat - 0x6000), s) ∧
      (0x6000 ≤ b → b < 0x8000 → byteAt (cpuWrite a v s) b = if a = b then v else byteAt s b)) ∧
    (0x6000 ≤ a → a < 0x8000 → s.cfg.cart.hasPrgRam = false → cpuRead a s = (0, s) ∧ cpuWrite a v s = s)

/-- 20_memory.md R93: an OAM DMA from a page of memory copies byte i of the page to OAM at oamaddr + i modulo 256 for
every i, leaves `oamaddr` and everything but OAM, and asks for 513 ticks, or 514 when the tick counter is odd. -/
def Obligations.OamDmaCopiesAPage : Prop :=
  ∀ (page : Byte) (s : State), s.ppu.oam.wf = true → (∀ i : Byte, isMemory (word page i) = true) →
    let t := cpuWrite 0x4014 page s
    (∀ i : Byte, t.ppu.oam.read (s.ppu.oamaddr + i).toNat = byteAt s (word page i)) ∧
      t = { s with ppu := { s.ppu with oam := t.ppu.oam },
                   cpu := { s.cpu with dmaStall := s.cpu.dmaStall + 513 + s.cpu.cyc % 2 } }

/-- 48_controller.md R381, R382: a write of 0x4016 sets the strobe from bit 0 and takes the snapshot of both button bytes
on its 1-to-0 transition only; after such a pulse eight reads of a port return its eight buttons, A first, every further
read returns 1 in bit 0, bit 6 is always 1 and the other bits 0, and the other port's register is not touched; while the
strobe is 1 every read returns the A button as it stands and shifts nothing. -/
def Obligations.ControllerReads : Prop :=
  ∀ (s : State) (d : Byte) (n : Nat),
    (cpuWrite 0x4016 d s = { s with pads :=
      if s.pads.strobe = true ∧ d.toNat % 2 = 0 then { shift0 := s.buttons0, shift1 := s.buttons1, strobe := false }
      else { s.pads with strobe := decide (d.toNat % 2 = 1) } }) ∧
    (let s1 := writesOf [(0x4016, 1), (0x4016, 0)] s
     let r := readsOf 0x4016 n s1
     (∀ k, k < n → r.1[k]? = some (if k < 8 ∧ s.buttons0.getLsbD k = false then 0x40 else 0x41)) ∧
       r.2.pads.shift1 = s.buttons1 ∧ r.2.pads.strobe = false) ∧
    (let s1 := writesOf [(0x4016, 1), (0x4016, 0)] s
     let r := readsOf 0x4017 n s1
     (∀ k, k < n → r.1[k]? = some (if k < 8 ∧ s.buttons1.getLsbD k = false then 0x40 else 0x41)) ∧
       r.2.pads.shift0 = s.buttons0 ∧ r.2.pads.strobe = false) ∧
    (s.pads.strobe = true →
      readsOf 0x4016 n s = (List.replicate n (if s.buttons0.getLsbD 0 then 0x41 else 0x40), s) ∧
      readsOf 0x4017 n s = (List.replicate n (if s.buttons1.getLsbD 0 then 0x41 else 0x40), s)) ∧
    (s.pads.strobe = false →
      cpuRead 0x4016 s = (if s.pads.shift0.getLsbD 0 then 0x41 else 0x40,
        { s with pads := { s.pads with shift0 := BitVec.ofNat 8 (s.pads.shift0.toNat / 2 + 128) } }) ∧
      cpuRead 0x4017 s = (if s.pads.shift1.getLsbD 0 then 0x41 else 0x40,
        { s with pads := { s.pads with shift1 := BitVec.ofNat 8 (s.pads.shift1.toNat / 2 + 128) } }))

/-! # The picture unit -/

/-- 45_ppu.md R251 to R257, R259, R261: the writes of the eight registers, the reads of PPUSTATUS (which clears `vblank`
and `w`) and of OAMDATA (which changes nothing), on any mirror of the window; a read of PPUDATA on a mirror is the read
of 0x2007 (what that is: `PictureDataReadIsBuffered`). -/
def Obligations.PictureRegisters : Prop :=
  ∀ (a : Word) (d : Byte) (s : State), 0x2000 ≤ a → a < 0x4000 →
    (a.toNat % 8 = 0 → cpuWrite a d s =
      { s with ppu := { s.ppu with ctrl := d, t := putField s.ppu.t 10 2 (field d 0 2) } }) ∧
    (a.toNat % 8 = 1 → cpuWrite a d s = { s with ppu := { s.ppu with mask := d } }) ∧
    (a.toNat % 8 = 2 → cpuWrite a d s = s ∧
      (cpuRead a s).1.toNat = 128 * s.ppu.vblank.toNat + 64 * s.ppu.spr0hit.toNat + 32 * s.ppu.overflow.toNat ∧
      (cpuRead a s).2 = { s with ppu := { s.ppu with vblank := false, w := false } }) ∧
    (a.toNat % 8 = 3 → cpuWrite a d s = { s with ppu := { s.ppu with oamaddr := d } }) ∧
    (a.toNat % 8 = 4 → cpuRead a s = (s.ppu.oam.read s.ppu.oamaddr.toNat, s) ∧ cpuWrite a d s =
      { s with ppu := { s.ppu with oam := s.ppu.oam.write s.ppu.oamaddr.toNat d, oamaddr := s.ppu.oamaddr + 1 } }) ∧
    (a.toNat % 8 = 5 → cpuWrite a d s = { s with ppu :=
      if s.ppu.w then { s.ppu with t := putField (putField s.ppu.t 12 3 (field d 0 3)) 5 5 (field d 3 5), w := false }
      else { s.ppu with t := putField s.ppu.t 0 5 (field d 3 5), x := field d 0 3, w := true } }) ∧
    (a.toNat % 8 = 6 → cpuWrite a d s = { s with ppu :=
      if s.ppu.w then { s.ppu with t := putField s.ppu.t 0 8 d, v := putField s.ppu.t 0 8 d, w := false }
      else { s.ppu with t := putField (putField s.ppu.t 8 6 (field d 0 6)) 14 1 0, w := true } }) ∧
    (a.toNat % 8 = 7 → cpuRead a s = cpuRead 0x2007 s ∧
      cpuWrite a d s = (let u := ppuWrite (BitVec.ofNat 16 (s.ppu.v.toNat % 16384)) d s
        { u with ppu := { u.ppu with
          v := BitVec.ofNat 15 (s.ppu.v.toNat + (if s.ppu.ctrl.getLsbD 2 then 32 else 1)) } }))

/-- 45_ppu.md R259, R261: with the toggle clear, two writes of 0x2006 and one of 0x2007 store the byte at the picture
address they spell, high byte first, and leave v past it by the increment; nametable and palette addresses are written
whatever the cartridge. -/
def Obligations.PictureDataWrite : Prop :=
  ∀ (hi lo d : Byte) (s : State), s.ppu.w = false → s.vram.wf = true → s.palette.wf = true →
    let t := writesOf [(0x2006, hi), (0x2006, lo), (0x2007, d)] s
    let a : Nat := 256 * (hi.toNat % 64) + lo.toNat
    t.ppu.v.toNat = a + (if s.ppu.ctrl.getLsbD 2 then 32 else 1) ∧ t.ppu.w = false ∧
      (0x2000 ≤ a → ppuRead t (BitVec.ofNat 16 a) = d) ∧ MemoryKept s t

/-- 45_ppu.md R258: a PPUDATA read below the palette returns the byte the previous read fetched and fetches the next; a
read of the palette returns its byte at once, all eight bits; either way v goes up by the increment, modulo 32768. -/
def Obligations.PictureDataReadIsBuffered : Prop :=
  ∀ s : State,
    let a : Word := BitVec.ofNat 16 (s.ppu.v.toNat % 16384)
    let s1 := (cpuRead 0x2007 s).2
    (a < 0x3F00 → byteAt s 0x2007 = s.ppu.readBuf ∧ s1.ppu.readBuf = ppuRead s a) ∧
    (0x3F00 ≤ a → byteAt s 0x2007 = ppuRead s a ∧ s1.ppu.readBuf = ppuRead s (a - 0x1000)) ∧
    (s1.ppu.v.toNat % 16384 < 0x3F00 → a < 0x3F00 → byteAt s1 0x2007 = ppuRead s a) ∧
    s1.ppu.v.toNat = (s.ppu.v.toNat + (if s.ppu.ctrl.getLsbD 2 then 32 else 1)) % 32768

/-- 20_memory.md R100 to R104, R106, R107, 10_state.md R32: the page of nametable RAM that each of the four logical
nametables names, for each mirroring, read and written; addresses above 14 bits wrap; 0x3000 to 0x3EFF repeats 0x2000
to 0x2EFF; the palette repeats every 32 bytes, and its entries 0x10, 0x14, 0x18, 0x1C are the bytes 0, 4, 8, 12: a byte
written through either name is read through both. -/
def Obligations.PictureBusMirrors : Prop :=
  ∀ (s : State) (a : Word) (d : Byte),
    (∀ n i : Nat, n < 4 → i < 1024 →
      let m := if s.cfg.cart.mapperId = .m1 then s.mapper.mirror else s.cfg.cart.mirroring
      let k := 1024 * (nametablePages m).getD n 0 + i
      ppuRead s (BitVec.ofNat 16 (0x2000 + 1024 * n + i)) = s.vram.read k ∧
      ppuWrite (BitVec.ofNat 16 (0x2000 + 1024 * n + i)) d s = { s with vram := s.vram.write k d }) ∧
    (∀ k : Nat, k < 4 → ppuRead s (BitVec.ofNat 16 (a.toNat % 16384 + 16384 * k)) = ppuRead s a) ∧
    (0x2000 ≤ a → a < 0x2F00 → ppuRead s (a + 0x1000) = ppuRead s a) ∧
    (0x3F00 ≤ a → a < 0x3FE0 → ppuRead s (a + 32) = ppuRead s a) ∧
    (s.palette.wf = true → 0x3F00 ≤ a → a < 0x3F10 → a.toNat % 4 = 0 →
      ppuRead (ppuWrite (a + 16) d s) a = d ∧ ppuRead (ppuWrite a d s) (a + 16) = d)

/-- 45_ppu.md R275, R276, R260: the dot at scanline 241 dot 1 sets `vblank` and, with PPUCTRL bit 7, latches the NMI; the
dot at scanline 261 dot 1 clears the three status flags; no other dot changes `vblank` or the latch, and no step latches
an NMI unless one of its three dots is that dot. -/
def Obligations.VideoInterruptDot : Prop :=
  (∀ s : State, (ppuTick s).cpu = { s.cpu with pendNMI :=
    s.cpu.pendNMI || (decide (s.ppu.scanline = 241 ∧ s.ppu.dot = 1) && s.ppu.ctrl.getLsbD 7) }) ∧
  (∀ s : State,
    (ppuTick s).ppu.vblank = (if s.ppu.scanline = 241 ∧ s.ppu.dot = 1 then true
      else if s.ppu.scanline = 261 ∧ s.ppu.dot = 1 then false else s.ppu.vblank) ∧
    (s.ppu.scanline = 261 ∧ s.ppu.dot = 1 → (ppuTick s).ppu.spr0hit = false ∧ (ppuTick s).ppu.overflow = false)) ∧
  (∀ s t : State, Inv s → s.cpu.pendNMI = false → step s = .next t → t.cpu.pendNMI = true →
    ∃ k, k < 3 ∧ (dotIndex s.ppu + k) % 89342 = 82182 ∧ s.ppu.ctrl.getLsbD 7 = true)

/-- 45_ppu.md R265: with rendering disabled a dot writes no framebuffer cell, does not touch v, evaluates no sprite and
sets neither sprite-0 hit nor overflow; the position, the flag events, the buffer swap and the frame event go on. (The
frame event is counted in the model's own `framesReady`, log entry 6.) -/
def Obligations.RenderingDisabled : Prop :=
  ∀ s : State, s.ppu.mask.getLsbD 3 = false → s.ppu.mask.getLsbD 4 = false →
    let p := s.ppu
    let cleared := p.scanline = 261 ∧ p.dot = 1
    (ppuTick s).ppu = { p with
      dot := if p.dot + 1 = 341 then 0 else p.dot + 1
      scanline := if p.dot + 1 = 341 then (if p.scanline + 1 = 262 then 0 else p.scanline + 1) else p.scanline
      vblank := if p.scanline = 241 ∧ p.dot = 1 then true else if cleared then false else p.vblank
      spr0hit := if cleared then false else p.spr0hit
      overflow := if cleared then false else p.overflow
      sprCur := if p.dot = 0 then p.sprNext else p.sprCur
      sprNext := if p.dot = 257 ∧ (p.scanline < 240 ∨ p.scanline = 261) then [] else p.sprNext } ∧
    (ppuTick s).framesReady = s.framesReady + (if p.dot + 1 = 341 ∧ p.scanline + 1 = 262 then 1 else 0)

/-- 45_ppu.md R264, R270 to R274, R278 to R284: with rendering enabled, the dot of column c on a visible scanline writes
that one framebuffer cell, with the colour of the composed layers, and sets the sprite-0 flag where the layers hit; every
other cell, and the whole framebuffer at every other dot, keeps its value; and every dot leaves the scroll address as
the column, row and reload rules say. -/
def Obligations.PixelWrite : Prop :=
  ∀ s : State,
    let p := s.ppu
    let ren := p.mask.getLsbD 3 = true ∨ p.mask.getLsbD 4 = true
    let drawn := p.scanline < 240 ∧ 1 ≤ p.dot ∧ p.dot ≤ 256 ∧ ren
    let c := p.dot - 1
    (p.fb.wf = true →
      (drawn → (ppuTick s).ppu.fb.read (256 * p.scanline + c) = colour s (compose (bgPixel s c) (sprPixel s c)) ∧
        ((ppuTick s).ppu.fb.read (256 * p.scanline + c)).toNat = colourShown s c) ∧
      ∀ y x : Nat, x < 256 → ¬ (drawn ∧ y = p.scanline ∧ x = c) →
        (ppuTick s).ppu.fb.read (256 * y + x) = p.fb.read (256 * y + x)) ∧
    (¬ drawn → (ppuTick s).ppu.fb = p.fb) ∧
    (drawn → (ppuTick s).ppu.spr0hit = (p.spr0hit || hitAt s c)) ∧
    (ren → (ppuTick s).ppu.v = scrollAfter p)

/-- 45_ppu.md R278 to R283: the background pixel, the sprite pixel and the colour of a pixel, in numbers; and entries 4, 8
and 12 of each half of the palette are never displayed: a displayed entry whose number is a multiple of 4 is entry 0. -/
def Obligations.BackdropEntriesNeverShown : Prop :=
  ∀ (s : State) (c : Nat),
    ((bgPixel s c).pv.toNat, (bgPixel s c).pal.toNat) = backgroundAt s c ∧
    (sprPixel s c).map (fun px => (px.pv.toNat, px.pal.toNat, px.behind, px.zero)) = spriteLayer s c ∧
    palIndex (compose (bgPixel s c) (sprPixel s c)) = entryShown s c ∧
    (colour s (compose (bgPixel s c) (sprPixel s c))).toNat = colourShown s c ∧
    (palIndex (compose (bgPixel s c) (sprPixel s c)) % 4 = 0 →
      palIndex (compose (bgPixel s c) (sprPixel s c)) = 0)

/-- 45_ppu.md R285, R286, R264, R275 to R277, R260, R287: evaluation keeps the first eight of the sprites in range of the
next scanline, in OAM order, and sets `overflow` exactly when there is a ninth; it never clears it. And the whole effect
of a dot with rendering enabled: dot 257 of a visible scanline evaluates, dot 257 of scanline 261 empties `sprNext`, dot 0
copies it to `sprCur`, and no other dot changes the two lists or sets `overflow`; the sprite-0 flag, the framebuffer and
the scroll address change as PixelWrite says and nowhere else; scanline 241 dot 1 sets `vblank`, scanline 261 dot 1 clears
the three flags; OAM, its address, PPUCTRL, PPUMASK, t, x, w and the read buffer are kept; the position moves on one
dot; outside the picture unit only the NMI latch and the count of frames change. (The frame event is counted in the
model's own `framesReady`, log entry 6.) -/
def Obligations.SpriteEvaluation : Prop :=
  (∀ p : Ppu, evaluate p = { p with
    sprNext := (spritesOn p (p.scanline + 1)).take 8
    overflow := p.overflow || decide (8 < (spritesOn p (p.scanline + 1)).length) }) ∧
  ∀ s : State, s.ppu.mask.getLsbD 3 = true ∨ s.ppu.mask.getLsbD 4 = true →
    let p := s.ppu
    let c := p.dot - 1
    let drawn := p.scanline < 240 ∧ 1 ≤ p.dot ∧ p.dot ≤ 256
    let evaluated := p.scanline < 240 ∧ p.dot = 257
    let cleared := p.scanline = 261 ∧ p.dot = 1
    ppuTick s = { s with
      ppu := { p with
        dot := if p.dot + 1 = 341 then 0 else p.dot + 1
        scanline := if p.dot + 1 = 341 then (if p.scanline + 1 = 262 then 0 else p.scanline + 1) else p.scanline
        v := scrollAfter p
        vblank := if p.scanline = 241 ∧ p.dot = 1 then true else if cleared then false else p.vblank
        spr0hit := if cleared then false else if drawn then p.spr0hit || hitAt s c else p.spr0hit
        overflow := if cleared then false else if evaluated then (evaluate p).overflow else p.overflow
        sprCur := if p.dot = 0 then p.sprNext else p.sprCur
        sprNext := if evaluated then (evaluate p).sprNext
          else if p.scanline = 261 ∧ p.dot = 257 then [] else p.sprNext
        fb := if drawn then p.fb.write (256 * p.scanline + c) (BitVec.ofNat 6 (colourShown s c)) else p.fb }
      cpu := { s.cpu with pendNMI :=
        s.cpu.pendNMI || (decide (p.scanline = 241 ∧ p.dot = 1) && p.ctrl.getLsbD 7) }
      framesReady := s.framesReady + (if p.dot + 1 = 341 ∧ p.scanline + 1 = 262 then 1 else 0) }

/-! # The audio unit -/

/-- 46_apu.md R323 to R327: between two sequencer steps nothing but the cycle count moves; when QF_PERIOD ticks have passed
since the last, the step runs and the next one is chosen, modulo four or five; and what each of the nine steps clocks, in
numbers: the linear counter, the length counters, the sweeps. -/
def Obligations.SequencerPeriod : Prop :=
  ∀ (p : Params) (u : Apu) (n : Nat),
    (u.seqCount + n < p.qfPeriod → apuTicks p n u = { u with seqCount := u.seqCount + n }) ∧
    (u.seqCount + n + 1 = p.qfPeriod →
      apuTicks p (n + 1) u = { sequencerStep p u.seqMode u.seqStep { u with seqCount := 0 } with
        seqStep := (u.seqStep + 1) % (if u.seqMode then 5 else 4) }) ∧
    let q := quarterOf u
    let h := halfOf p.cpuHz q
    [0, 1, 2, 3].map (fun k => sequencerStep p false k u) = [q, h, q, h] ∧
    [0, 1, 2, 3, 4].map (fun k => sequencerStep p true k u) = [q, h, q, u, h]

/-- 46_apu.md R301 to R322: the write of every audio register from 0x4000 to 0x4017 (0x4014 and 0x4016 are not the audio
unit's), in numbers, with the frequency each period change gives; reading 0x4015 shows which of the four length counters
are not 0 and changes nothing; after a write of 0x4015 a channel shows only if it did before and its bit was written 1. -/
def Obligations.LengthStatus : Prop :=
  ∀ (d : Byte) (s : State),
    let u := s.apu
    let n := d.toNat
    let hz := s.cfg.params.cpuHz
    let put := fun v : Apu => { s with apu := v }
    (∀ r : Nat, r < 4 →
      cpuWrite (BitVec.ofNat 16 (0x4000 + r)) d s = put { u with pulse0 := pulseWritten hz r d u.pulse0 } ∧
      cpuWrite (BitVec.ofNat 16 (0x4004 + r)) d s = put { u with pulse1 := pulseWritten hz r d u.pulse1 } ∧
      cpuWrite (BitVec.ofNat 16 (0x4010 + r)) d s = put { u with dmc :=
        if r = 0 then { u.dmc with reg0 := d } else if r = 1 then { u.dmc with reg1 := d }
        else if r = 2 then { u.dmc with reg2 := d } else { u.dmc with reg3 := d } }) ∧
    (cpuWrite 0x4008 d s = put { u with tri := { u.tri with
      control := n / 128 == 1, linReload := BitVec.ofNat 7 (n % 128) } }) ∧
    cpuWrite 0x4009 d s = s ∧
    (cpuWrite 0x400A d s = put { u with tri :=
      let period := u.tri.period.toNat / 256 * 256 + n
      { u.tri with period := BitVec.ofNat 11 period, freq := triHz hz period } }) ∧
    (cpuWrite 0x400B d s = put { u with tri :=
      let period := n % 8 * 256 + u.tri.period.toNat % 256
      { u.tri with
        period := BitVec.ofNat 11 period, freq := triHz hz period, enabled := true, length := lengthLoaded d
        linFlag := true } }) ∧
    (cpuWrite 0x400C d s = put { u with noise := { u.noise with
      halt := n / 32 % 2 == 1, constVol := n / 16 % 2 == 1, volume := BitVec.ofNat 4 (n % 16) } }) ∧
    cpuWrite 0x400D d s = s ∧
    (cpuWrite 0x400E d s = put { u with noise := { u.noise with
      mode := n / 128 == 1, periodIdx := BitVec.ofNat 4 (n % 16)
      freq := (hz : Rat) / ((noisePeriods.getD (n % 16) 0 : Nat) : Rat) } }) ∧
    (cpuWrite 0x400F d s = put { u with noise := { u.noise with enabled := true, length := lengthLoaded d } }) ∧
    (let on := fun k : Nat => n / 2 ^ k % 2 == 1
     let kept := fun (k : Nat) (len : Byte) => if on k then len else 0
     cpuWrite 0x4015 d s = put { u with
      pulse0 := { u.pulse0 with enabled := on 0, length := kept 0 u.pulse0.length }
      pulse1 := { u.pulse1 with enabled := on 1, length := kept 1 u.pulse1.length }
      tri := { u.tri with enabled := on 2, length := kept 2 u.tri.length }
      noise := { u.noise with enabled := on 3, length := kept 3 u.noise.length }
      dmc := { u.dmc with enabled := on 4 } }) ∧
    (cpuWrite 0x4017 d s = put (
      let w := { u with seqMode := n / 128 == 1, irqInhibit := n / 64 % 2 == 1, seqCount := 0, seqStep := 0 }
      if 128 ≤ n then halfOf hz (quarterOf w) else w)) ∧
    ((cpuRead 0x4015 s).1.toNat = 8 * (decide (u.noise.length ≠ 0)).toNat + 4 * (decide (u.tri.length ≠ 0)).toNat +
      2 * (decide (u.pulse1.length ≠ 0)).toNat + (decide (u.pulse0.length ≠ 0)).toNat ∧ (cpuRead 0x4015 s).2 = s) ∧
    byteAt (cpuWrite 0x4015 d s) 0x4015 = byteAt s 0x4015 &&& d &&& 0x0F

/-- 46_apu.md R330 to R337, R340: the samples in numbers. Each sample is what the two pulse channels, the triangle and the
noise channel give (`pulseOut`, `triangleOut`, `noiseOut`; the delta-modulation channel gives 0), mixed by weight and
volume, filtered with the last output and limited to [-1, 1] (`lowPassed`, both orders of the coefficients); the noise
register's one clock in both modes; the number of rounds of R333's loop (that it is floor(acc) is log entry 12, DEDUCED,
and here every round begins with at least 1 left and the last leaves less). One call of `generate_frame_audio` gives the 735
next samples and leaves in the buffer the last 44100 of the old samples followed by the new ones; nothing else changes
but phases, `acc`, the noise register and `yPrev`. So (a) it appends 735 samples unless the cap evicts; (b) every sample
is in [-1, 1]; (c) a pulse channel with freq = 0, volume = 0 or enabled = 0 adds exactly 0; (d) straight after reset every
sample is exactly 0. -/
def Obligations.FrameAudio : Prop :=
  (∀ ch : Pulse, pulseSample ch = pulseOut ch) ∧ (∀ ch : Tri, triSample ch = triangleOut ch) ∧
  (∀ ch : Noise, noiseSample ch = noiseOut ch) ∧
  (∀ (mode : Bool) (r : BitVec 15), (lfsrClock mode r).toNat = noiseShift mode r.toNat) ∧
  (∀ acc : Rat, (∀ j : Nat, j < acc.floor.toNat → 1 ≤ acc - (j : Rat)) ∧ acc - (acc.floor.toNat : Rat) < 1) ∧
  (∀ (p : Params) (old m : Rat), filter p old m = lowPassed p.filterNewFirst old m) ∧
  (∀ (p : Params) (u : Apu), u.samples.length ≤ 44100 →
    let new := samplesOf p 735 u
    let all := u.samples ++ new.1
    generateFrameAudio p u = { new.2 with samples := all.drop (all.length - 44100) }) ∧
  (∀ (p : Params) (u : Apu), u.samples.length ≤ 44100 →
    (generateFrameAudio p u).samples.length = min 44100 (u.samples.length + 735)) ∧
  (∀ (p : Params) (u : Apu), (∀ y ∈ u.samples, InRange y) → ∀ y ∈ (generateFrameAudio p u).samples, InRange y) ∧
  (∀ ch : Pulse, ch.freq = 0 ∨ ch.volume = 0 ∨ ch.enabled = false → (pulseSample ch).1 = 0) ∧
  (∀ (p : Params) (master : Rat) (on : Bool), (generateFrameAudio p (resetApu master on)).samples.length = 735 ∧
    ∀ y ∈ (generateFrameAudio p (resetApu master on)).samples, y = 0)

/-! # The cartridge -/

/-- 47_mapper.md R361 to R363: with mapper 1, a write anywhere in 0x8000 to 0xFFFF with bit 7 set empties the shift
register and selects PRG mode 3; a write with bit 7 clear puts bit 0 of its byte at the place of the shift register that
the count names, and the fifth loads the register its address names and empties the shift register. So five writes from
an empty shift register, least significant bit first, put the five bits in the register that the fifth address names
and change nothing else of the machine. -/
def Obligations.SerialBankWrite : Prop :=
  (∀ (s : State) (a : Word) (d : Byte), s.cfg.cart.mapperId = .m1 → 0x8000 ≤ a → 128 ≤ d.toNat →
    cpuWrite a d s = { s with mapper := { s.mapper with sr := 0, srCount := 0, prgMode := 3 } }) ∧
  (∀ (s : State) (a : Word) (d : Byte), s.cfg.cart.mapperId = .m1 → 0x8000 ≤ a → d.toNat < 128 → s.mapper.srCount < 5 →
    let v : BitVec 5 := s.mapper.sr ||| BitVec.ofNat 5 (d.toNat % 2 * 2 ^ s.mapper.srCount)
    cpuWrite a d s = { s with mapper :=
      if s.mapper.srCount = 4 then { loadedBy a v s.mapper with sr := 0, srCount := 0 }
      else { s.mapper with sr := v, srCount := s.mapper.srCount + 1 } }) ∧
  ∀ (s : State) (v : BitVec 5) (a0 a1 a2 a3 a4 : Word) (d0 d1 d2 d3 d4 : Byte),
    s.cfg.cart.mapperId = .m1 → s.mapper.sr = 0 → s.mapper.srCount = 0 →
    0x8000 ≤ a0 → 0x8000 ≤ a1 → 0x8000 ≤ a2 → 0x8000 ≤ a3 → 0x8000 ≤ a4 →
    carriesBit d0 (v.getLsbD 0) → carriesBit d1 (v.getLsbD 1) → carriesBit d2 (v.getLsbD 2) →
    carriesBit d3 (v.getLsbD 3) → carriesBit d4 (v.getLsbD 4) →
    writesOf [(a0, d0), (a1, d1), (a2, d2), (a3, d3), (a4, d4)] s = { s with mapper := loadedBy a4 v s.mapper }

/-- 47_mapper.md R353 to R359, R364, R365, R367, R368, 20_memory.md R101, R105: the byte the CPU reads in the ROM window,
for each mapper, is the byte of the ROM at the bank the registers select, modulo the number of banks; a write of the
window selects the bank of mapper 2, the pattern bank of mapper 3, and does nothing with mapper 0; the pattern byte read
below 0x2000 is the byte of the CHR RAM or CHR ROM at the selected bank, and a write there stores in CHR RAM only. -/
def Obligations.RomBanks : Prop :=
  (∀ (s : State) (a : Word), 0x8000 ≤ a →
    let rom := fun k => s.cfg.cart.prg.read k
    let n := s.cfg.cart.prgBanks
    let k := a.toNat % 16384
    ((s.cfg.cart.mapperId = .m0 ∨ s.cfg.cart.mapperId = .m3) → byteAt s a = rom ((a.toNat - 32768) % (16384 * n))) ∧
    (∀ d : Byte, s.cfg.cart.mapperId = .m0 → cpuWrite a d s = s) ∧
    (∀ d : Byte, s.cfg.cart.mapperId = .m3 → cpuWrite a d s = { s with mapper := { s.mapper with chrSel := d } }) ∧
    (s.cfg.cart.mapperId = .m2 → 0 < n →
      byteAt s a = rom (if a < 0xC000 then 16384 * (s.mapper.prgSel.toNat % n) + k else 16384 * (n - 1) + k) ∧
      ∀ d : Byte, cpuWrite a d s = { s with mapper := { s.mapper with prgSel := d } }) ∧
    (s.cfg.cart.mapperId = .m1 →
      byteAt s a = rom (16384 * ((
        if s.mapper.prgMode.toNat < 2 then
          2 * (s.mapper.prgBank.toNat % 16 / 2) + (if a < 0xC000 then 0 else 1)
        else if s.mapper.prgMode.toNat = 2 then (if a < 0xC000 then 0 else s.mapper.prgBank.toNat % 16)
        else (if a < 0xC000 then s.mapper.prgBank.toNat % 16 else n - 1)) % n) + k))) ∧
  ∀ (s : State) (a : Word) (d : Byte), a < 0x2000 →
    ppuRead s a = (if s.cfg.cart.chrBanks = 0 then s.chrRam.read (patternIndex s a.toNat)
      else s.cfg.cart.chr.read (patternIndex s a.toNat)) ∧
    ppuWrite a d s = (if s.cfg.cart.chrBanks = 0 then { s with chrRam := s.chrRam.write (patternIndex s a.toNat) d }
      else s)

/-! # The host -/

/-- 10_state.md R56: the value of every piece of state after power-on and after reset(). (The fields `undSeen`,
`framesReady` and `frameCycle` are the model's own, log entries 5, 6 and 9: false and 0 after power-on, kept by reset().) -/
def Obligations.PowerOnAndResetValues : Prop :=
  (∀ cfg : Config, ∃ pc, powerOnState cfg =
    { cpu := { a := 0, x := 0, y := 0, sp := 0xFD, pc := pc,
               flags := { c := false, z := false, i := true, d := false, v := false, n := false },
               pendNMI := false, pendIRQ := false, wait := 0, cyc := 0, dmaStall := 0 },
      ram := [], pads := { shift0 := 0, shift1 := 0, strobe := false }, vram := [], palette := [],
      ppu := resetPpu, apu := resetApu 1 true, prgRam := [], chrRam := [], mapper := powerOnMapper cfg.cart,
      buttons0 := 0, buttons1 := 0, cfg := cfg, snap := (powerOnState cfg).toLive, frameCycle := 0, undSeen := false,
      framesReady := 0 } ∧ pc = word (byteAt (powerOnState cfg) 0xFFFD) (byteAt (powerOnState cfg) 0xFFFC)) ∧
  (∀ s : State, hostReset s = { s with
    cpu := { a := 0, x := 0, y := 0, sp := 0xFD, pc := word (byteAt s 0xFFFD) (byteAt s 0xFFFC),
             flags := { c := false, z := false, i := true, d := false, v := false, n := false },
             pendNMI := false, pendIRQ := false, wait := 0, cyc := 0, dmaStall := 0 },
    ppu := resetPpu, apu := resetApu s.apu.master s.apu.audioEnabled }) ∧
  (∀ (w k : Nat), Memory.read ([] : Memory w) k = 0) ∧
  resetPpu = { scanline := 0, dot := 0, oam := [], oamaddr := 0, ctrl := 0, mask := 0, v := 0, t := 0, x := 0, w := false,
               vblank := false, spr0hit := false, overflow := false, readBuf := 0, sprCur := [], sprNext := [],
               fb := [] } ∧
  (∀ (m : Rat) (on : Bool),
    let pulse : Pulse :=
      { enabled := false, duty := 0, halt := false, constVol := false, volume := 0, swEnable := false, swPeriod := 0,
        swNegate := false, swShift := 0, swReload := false, swDiv := 0, period := 0, freq := 0, length := 0, phase := 0 }
    resetApu m on =
      { pulse0 := pulse, pulse1 := pulse,
        tri := { enabled := false, control := false, linReload := 0, linear := 0, linFlag := false, period := 0,
                 freq := 0, length := 0, phase := 0 },
        noise := { enabled := false, halt := false, constVol := false, volume := 0, mode := false, periodIdx := 0,
                   freq := 0, length := 0, lfsr := 1, acc := 0 },
        dmc := { enabled := false, reg0 := 0, reg1 := 0, reg2 := 0, reg3 := 0 },
        seqCount := 0, seqStep := 0, seqMode := false, irqInhibit := false, samples := [], yPrev := 0,
        master := m, audioEnabled := on }) ∧
  ∀ c : Cart, powerOnMapper c =
    { sr := 0, srCount := 0, mirror := c.mirroring, prgMode := 3, chrMode := false, chrBank0 := 0, chrBank1 := 0,
      prgBank := 0, prgSel := 0, chrSel := 0 }

/-- 47_mapper.md R352, 70_reset_and_hazards.md R461: construction refuses every record whose identifier is none of 0, 1, 2,
3, whose bank count is 0, whose bytes are of another number or whose mirroring is single-screen (that last is log entry
18), and yields the power-on state of the record's cartridge otherwise: its mapper, its counts, its ROM bytes. -/
def Obligations.Construction : Prop :=
  ∀ (p : Params) (irq : List Nat) (r : CartRecord),
    let good := r.mapperId < 4 ∧ 1 ≤ r.prgBanks ∧ r.prg.length = 16384 * r.prgBanks ∧ r.chr.length = 8192 * r.chrBanks ∧
      r.mirroring ≠ .singleLow ∧ r.mirroring ≠ .singleHigh
    (¬ good → construct p irq r = .refused .badCartridge) ∧
    (good → ∃ cfg : Config, construct p irq r = .next (powerOnState cfg) ∧ cfg.params = p ∧ cfg.irqIn = irq ∧
      mapperOfId r.mapperId = some cfg.cart.mapperId ∧
      (r.mapperId = 0 ↔ cfg.cart.mapperId = .m0) ∧ (r.mapperId = 1 ↔ cfg.cart.mapperId = .m1) ∧
      (r.mapperId = 2 ↔ cfg.cart.mapperId = .m2) ∧ (r.mapperId = 3 ↔ cfg.cart.mapperId = .m3) ∧
      cfg.cart.prgBanks = r.prgBanks ∧ cfg.cart.chrBanks = r.chrBanks ∧ cfg.cart.mirroring = r.mirroring ∧
      cfg.cart.hasPrgRam = r.hasPrgRam ∧ (∀ k, k < r.prg.length → cfg.cart.prg.read k = r.prg.getD k 0) ∧
      ∀ k, k < r.chr.length → cfg.cart.chr.read k = r.chr.getD k 0)

/-- 70_reset_and_hazards.md R459: after `backup`, any machine cycles or any operations of the host but another backup, and
then `restore`, the live state is bit-identical to the state at the backup; the host's button bytes and the
configuration are not restored; `backup` then `restore` at once leaves the live state as it was. (That the host acts only
while the model's own count `frameCycle` is 0 is log entry 9.) -/
def Obligations.BackupRestore : Prop :=
  (∀ s : State, (restore (backup s)).toLive = s.toLive) ∧
  (∀ (n : Nat) (s t : State), runCycles n (backup s) = .next t →
    (restore t).toLive = s.toLive ∧ (restore t).buttons0 = t.buttons0 ∧ (restore t).buttons1 = t.buttons1 ∧
      (restore t).cfg = s.cfg) ∧
  ∀ (ops : List HostOp) (s t : State), HostOp.backup ∉ ops → s.frameCycle = 0 →
    runOps ([.backup] ++ ops ++ [.restore]) s = .next t →
    t.toLive = s.toLive ∧ t.cfg = s.cfg
end

