-- ==== Sys2Proof/Laws/Audio.lean ====
section
/-! SUPPORT. Laws/Audio.lean: what the shared operations of the synthesis can do (46_apu.md R330 to R337). -/

namespace Sys2Proof.Machine

/-- A fractional part is in [0, 1). -/
theorem frac_range (q : Rat) : 0 ≤ frac q ∧ frac q < 1 := by
  have low := Rat.floor_le q
  have high := Rat.lt_floor_add_one q
  have succ : ((q.floor + 1 : Int) : Rat) = (q.floor : Rat) + 1 := by rw [Rat.intCast_add]; rfl
  unfold frac
  constructor <;> grind

/-- A clamped value is between the bounds. -/
theorem clamp_range (q lo hi : Rat) (h : lo ≤ hi) : lo ≤ clamp q lo hi ∧ clamp q lo hi ≤ hi := by
  unfold clamp
  split
  · exact ⟨Rat.le_refl, h⟩
  · split
    · exact ⟨h, Rat.le_refl⟩
    · constructor <;> grind

/-- A buffer within the cap takes a sample at its end and keeps its last 44100. -/
theorem appendSample_eq (y : Rat) (l : List Rat) (h : l.length ≤ bufferCap) :
    appendSample y l = (l ++ [y]).drop ((l ++ [y]).length - bufferCap) := by
  have len : (l ++ [y]).length = l.length + 1 := List.length_append
  unfold appendSample
  split
  · rw [show (l ++ [y]).length - bufferCap = 1 by omega]
  · rw [show (l ++ [y]).length - bufferCap = 0 by omega]; rfl

/-- Every sample of the buffer is an old one or the new one. -/
theorem appendSample_mem {y z : Rat} {l : List Rat} (h : z ∈ appendSample y l) : z = y ∨ z ∈ l := by
  have all : z ∈ l ++ [y] := by
    unfold appendSample at h
    split at h
    · exact List.mem_of_mem_drop h
    · exact h
  simpa [or_comm] using all

/-- A clock of the noise register that is not 0 leaves it not 0 (R333): the bit that leaves comes back at the top. -/
theorem lfsrClock_ne_zero (mode : Bool) (r : BitVec 15) (h : r ≠ 0) : lfsrClock mode r ≠ 0 := by
  intro zero
  apply h
  unfold lfsrClock at zero
  dsimp only at zero
  have upper : ∀ i, i < 14 → r.getLsbD (i + 1) = false := by
    intro i hi
    have bit := congrArg (fun x => x.getLsbD i) zero
    simp [BitVec.getLsbD_or, BitVec.getLsbD_ushiftRight] at bit
    rw [Nat.add_comm]; exact bit.1
  have fed := congrArg (fun x => x.getLsbD 14) zero
  have one := upper 0 (by omega)
  have six := upper 5 (by omega)
  have lowest : r.getLsbD 0 = false := by
    simp at fed
    simp at one six
    cases mode <;> simp_all
  apply BitVec.eq_of_getLsbD_eq
  intro i hi
  rcases i with _ | i
  · simpa using lowest
  · rw [upper i (by omega)]; simp

end Sys2Proof.Machine
end

