-- ==== Sys2Proof/Laws/Bits.lean ====
section
/-! SUPPORT. Laws/Bits.lean: reading and writing a bit field, in numbers. -/

namespace Sys2Proof.Machine

/-- A field as a number. -/
theorem field_toNat {n : Nat} (v : BitVec n) (lo len : Nat) : (field v lo len).toNat = v.toNat / 2 ^ lo % 2 ^ len := by
  rw [field, BitVec.extractLsb'_toNat, Nat.shiftRight_eq_div_pow]

/-- Putting a field as a number: the bits above it, the field, the bits below it. -/
theorem putField_toNat {n : Nat} (v : BitVec n) (lo len : Nat) (f : BitVec len) (h : lo + len ≤ n) :
    (putField v lo len f).toNat =
      2 ^ (lo + len) * (v.toNat / 2 ^ (lo + len)) + (2 ^ lo * f.toNat + v.toNat % 2 ^ lo) := by
  have hlow : 2 ^ lo * f.toNat + v.toNat % 2 ^ lo < 2 ^ (lo + len) := by
    have h1 := Nat.mod_lt v.toNat (Nat.two_pow_pos lo)
    have h2 : 2 ^ lo * (f.toNat + 1) ≤ 2 ^ lo * 2 ^ len := Nat.mul_le_mul_left _ f.isLt
    rw [Nat.pow_add]; rw [Nat.mul_add] at h2; omega
  apply Nat.eq_of_testBit_eq
  intro i
  rw [Nat.testBit_two_pow_mul_add _ hlow, Nat.testBit_two_pow_mul_add _ (Nat.mod_lt _ (Nat.two_pow_pos lo))]
  have e : (putField v lo len f).toNat.testBit i = (putField v lo len f).getLsbD i := rfl
  rw [e]
  unfold putField
  simp only [BitVec.getLsbD_or, BitVec.getLsbD_and, BitVec.getLsbD_not, BitVec.getLsbD_shiftLeft, BitVec.getLsbD_setWidth,
    BitVec.getLsbD_allOnes, Nat.testBit_div_two_pow, Nat.testBit_mod_two_pow]
  have hv : ∀ j, v.toNat.testBit j = v.getLsbD j := fun _ => rfl
  have hf : ∀ j, f.toNat.testBit j = f.getLsbD j := fun _ => rfl
  have ho : n ≤ i → v.getLsbD i = false := fun hn => BitVec.getLsbD_of_ge _ _ hn
  rw [hv, hv, hf]
  by_cases hn : i < n
  · by_cases h1 : i < lo + len
    · by_cases h2 : i < lo
      · simp [hn, h1, h2]
      · have : i - lo < len := by omega
        have : i - lo < n := by omega
        simp [*]
    · have : f.getLsbD (i - lo) = false := BitVec.getLsbD_of_ge _ _ (by omega)
      have h2 : ¬ i < lo := by omega
      have h3 : ¬ i - lo < len := by omega
      have h4 : i - (lo + len) + (lo + len) = i := by omega
      simp [hn, h1, h2, h3, this, h4]
  · have h1 : ¬ i < lo + len := by omega
    have h4 : i - (lo + len) + (lo + len) = i := by omega
    simp [hn, h1, h4, ho (by omega)]

/-- Putting the low field. -/
theorem putLow_toNat {n : Nat} (v : BitVec n) (len : Nat) (f : BitVec len) (h : len ≤ n) :
    (putField v 0 len f).toNat = 2 ^ len * (v.toNat / 2 ^ len) + f.toNat := by
  rw [putField_toNat _ _ _ _ (by omega)]
  simp [Nat.mod_one]

/-- Flipping one bit is putting the field of that bit. -/
theorem flip_eq_putField {n : Nat} (v : BitVec n) (k : Nat) :
    v ^^^ ((1 : BitVec n) <<< k) = putField v k 1 (~~~field v k 1) := by
  apply BitVec.eq_of_getLsbD_eq
  intro i hi
  unfold putField field
  simp only [BitVec.getLsbD_xor, BitVec.getLsbD_or, BitVec.getLsbD_and, BitVec.getLsbD_not, BitVec.getLsbD_shiftLeft,
    BitVec.getLsbD_setWidth, BitVec.getLsbD_allOnes, BitVec.getLsbD_extractLsb']
  by_cases h : i < k
  · simp [h, hi]
  · by_cases h1 : i - k < 1
    · have e : i = k := by omega
      subst e
      have : 0 < n := by omega
      simp [hi, this]
    · have h2 : ¬ i - k = 0 := by omega
      simp [h, h1, h2, hi]

end Sys2Proof.Machine
end

