-- ==== Sys2Proof/Laws/Memory.lean ====
section
/-! SUPPORT. Laws/Memory.lean: what a write of a memory does to a later read, and that it keeps the canonical
form and the size. -/

namespace Sys2Proof

variable {w : Nat}

@[simp] theorem Memory.read_nil (a : Nat) : Memory.read ([] : Memory w) a = 0 := rfl

@[simp] theorem Memory.wf_nil : Memory.wf ([] : Memory w) = true := rfl

@[simp] theorem Memory.within_nil (size : Nat) : Memory.within size ([] : Memory w) = true := rfl

theorem Memory.sortedFrom_cons (lo k : Nat) (b : BitVec w) (m : Memory w) :
    Memory.sortedFrom lo ((k, b) :: m) = true ↔ lo ≤ k ∧ b ≠ 0 ∧ Memory.sortedFrom (k + 1) m = true := by
  simp [Memory.sortedFrom, and_assoc]

theorem Memory.sortedFrom_mono {lo lo' : Nat} (h : lo' ≤ lo) :
    ∀ {m : Memory w}, Memory.sortedFrom lo m = true → Memory.sortedFrom lo' m = true
  | [], _ => rfl
  | (k, b) :: m, hm => by
    rw [Memory.sortedFrom_cons] at hm ⊢
    exact ⟨by omega, hm.2⟩

/-- Below the first listed index every cell is 0. -/
theorem Memory.read_below {a lo : Nat} (h : a < lo) :
    ∀ {m : Memory w}, Memory.sortedFrom lo m = true → m.read a = 0
  | [], _ => rfl
  | (k, b) :: m, hm => by
    rw [Memory.sortedFrom_cons] at hm
    rw [Memory.read, if_neg (by omega)]
    exact read_below (by omega) hm.2.2

theorem Memory.sortedFrom_write {lo a : Nat} (b : BitVec w) (h : lo ≤ a) :
    ∀ {m : Memory w}, Memory.sortedFrom lo m = true → Memory.sortedFrom lo (m.write a b) = true
  | [], _ => by
    unfold Memory.write
    split
    · rfl
    · next hb => exact (Memory.sortedFrom_cons ..).2 ⟨h, hb, rfl⟩
  | (k, c) :: m, hm => by
    obtain ⟨hk, hc, ht⟩ := (Memory.sortedFrom_cons ..).1 hm
    unfold Memory.write
    split
    · split
      · exact hm
      · next hb => exact (Memory.sortedFrom_cons ..).2 ⟨h, hb, (Memory.sortedFrom_cons ..).2 ⟨by omega, hc, ht⟩⟩
    · split
      · split
        · exact Memory.sortedFrom_mono (by omega) ht
        · next hb => exact (Memory.sortedFrom_cons ..).2 ⟨h, hb, Memory.sortedFrom_mono (by omega) ht⟩
      · exact (Memory.sortedFrom_cons ..).2 ⟨hk, hc, Memory.sortedFrom_write b (by omega) ht⟩

/-- A write keeps the canonical form. -/
theorem Memory.wf_write {m : Memory w} (a : Nat) (b : BitVec w) (h : m.wf = true) : (m.write a b).wf = true :=
  Memory.sortedFrom_write b (Nat.zero_le a) h

theorem Memory.within_write {size a : Nat} (b : BitVec w) (ha : a < size) :
    ∀ {m : Memory w}, Memory.within size m = true → Memory.within size (m.write a b) = true
  | [], _ => by
    unfold Memory.write
    split <;> simp [Memory.within, ha]
  | (k, c) :: m, hm => by
    have ih := @within_write size a b ha m
    simp only [Memory.within, List.all_cons, Bool.and_eq_true, decide_eq_true_eq] at hm ih ⊢
    unfold Memory.write
    split
    · split <;> simp [ha, hm.1, hm.2]
    · split
      · split <;> simp [ha, hm.2]
      · simp [hm.1, ih hm.2]

/-- A memory in canonical form: a read after a write gives the value written at its index, and the value before
it everywhere else. -/
theorem Memory.sorted_read_write {lo : Nat} (a c : Nat) (b : BitVec w) :
    ∀ {m : Memory w}, Memory.sortedFrom lo m = true → (m.write a b).read c = if c = a then b else m.read c
  | [], _ => by
    unfold Memory.write
    split
    · next hb => subst hb; split <;> rfl
    · simp only [Memory.read, eq_comm]
  | (k, d) :: m, hm => by
    obtain ⟨hk, hd, hm⟩ := (Memory.sortedFrom_cons ..).1 hm
    have ih := sorted_read_write a c b hm
    unfold Memory.write
    rcases Nat.lt_trichotomy a k with h1 | h1 | h1
    · rw [if_pos h1]
      by_cases hc : c = a
      · subst hc
        have h0 := Memory.read_below (show c < k + 1 by omega) hm
        by_cases hb : b = 0
        · rw [if_pos hb, if_pos rfl, Memory.read, if_neg (by omega), h0, hb]
        · rw [if_neg hb, if_pos rfl, Memory.read, if_pos rfl]
      · by_cases hb : b = 0
        · rw [if_pos hb, if_neg hc]
        · rw [if_neg hb, if_neg hc, Memory.read, if_neg (by omega)]
    · subst h1
      rw [if_neg (by omega), if_pos rfl]
      by_cases hc : c = a
      · subst hc
        have h0 := Memory.read_below (show c < c + 1 by omega) hm
        by_cases hb : b = 0
        · rw [if_pos hb, if_pos rfl, h0, hb]
        · rw [if_neg hb, if_pos rfl, Memory.read, if_pos rfl]
      · rw [if_neg hc]
        by_cases hb : b = 0
        · rw [if_pos hb, Memory.read, if_neg (by omega)]
        · rw [if_neg hb, Memory.read, if_neg (by omega), Memory.read, if_neg (by omega)]
    · rw [if_neg (by omega), if_neg (by omega), Memory.read, Memory.read]
      by_cases hc : k = c
      · subst hc
        rw [if_pos rfl, if_pos rfl, if_neg (by omega)]
      · rw [if_neg hc, if_neg hc, ih]

theorem Memory.read_write {m : Memory w} (h : m.wf = true) (a c : Nat) (b : BitVec w) :
    (m.write a b).read c = if c = a then b else m.read c :=
  Memory.sorted_read_write a c b h

@[simp] theorem Memory.read_write_same {m : Memory w} (h : m.wf = true) (a : Nat) (b : BitVec w) :
    (m.write a b).read a = b := by rw [Memory.read_write h, if_pos rfl]

theorem Memory.read_write_ne {m : Memory w} (h : m.wf = true) {a c : Nat} (b : BitVec w) (hc : c ≠ a) :
    (m.write a b).read c = m.read c := by rw [Memory.read_write h, if_neg hc]

theorem Memory.sortedFrom_ofBytes (bs : List Byte) : ∀ n, Memory.sortedFrom n (Memory.ofBytes n bs) = true := by
  induction bs with
  | nil => intro n; rfl
  | cons b bs ih =>
    intro n
    unfold Memory.ofBytes
    split
    · exact Memory.sortedFrom_mono (by omega) (ih (n + 1))
    · next hb => exact (Memory.sortedFrom_cons ..).2 ⟨Nat.le_refl n, hb, ih (n + 1)⟩

/-- A memory made from a list of bytes is in canonical form. -/
theorem Memory.wf_ofBytes (n : Nat) (bs : List Byte) : (Memory.ofBytes n bs).wf = true :=
  Memory.sortedFrom_mono (Nat.zero_le n) (Memory.sortedFrom_ofBytes bs n)

theorem Memory.read_ofBytes (bs : List Byte) : ∀ n k, k < bs.length → (Memory.ofBytes n bs).read (n + k) = bs.getD k 0 := by
  induction bs with
  | nil => intro n k hk; simp at hk
  | cons b bs ih =>
    intro n k hk
    cases k with
    | zero =>
      unfold Memory.ofBytes
      split
      · next hb => rw [Memory.read_below (lo := n + 1) (by omega) (Memory.sortedFrom_ofBytes bs _)]; simp [hb]
      · simp [Memory.read]
    | succ k =>
      have h := ih (n + 1) k (by simpa using hk)
      rw [show n + 1 + k = n + (k + 1) by omega] at h
      unfold Memory.ofBytes
      split
      · simpa using h
      · rw [Memory.read, if_neg (by omega)]; simpa using h

end Sys2Proof
end

