-- ==== Sys2Proof/Laws/State.lean ====
section
/-! SUPPORT. Laws/State.lean: one lemma for each field and each register update, true by rfl, so that no later
proof unfolds a record update. -/

namespace Sys2Proof.Machine

/-! ### State.setA -/

@[simp] theorem State.setA_cpu (v : Byte) (s : State) : (s.setA v).cpu = { s.cpu with a := v } := rfl
@[simp] theorem State.setA_ram (v : Byte) (s : State) : (s.setA v).ram = s.ram := rfl
@[simp] theorem State.setA_pads (v : Byte) (s : State) : (s.setA v).pads = s.pads := rfl
@[simp] theorem State.setA_vram (v : Byte) (s : State) : (s.setA v).vram = s.vram := rfl
@[simp] theorem State.setA_palette (v : Byte) (s : State) : (s.setA v).palette = s.palette := rfl
@[simp] theorem State.setA_ppu (v : Byte) (s : State) : (s.setA v).ppu = s.ppu := rfl
@[simp] theorem State.setA_apu (v : Byte) (s : State) : (s.setA v).apu = s.apu := rfl
@[simp] theorem State.setA_prgRam (v : Byte) (s : State) : (s.setA v).prgRam = s.prgRam := rfl
@[simp] theorem State.setA_chrRam (v : Byte) (s : State) : (s.setA v).chrRam = s.chrRam := rfl
@[simp] theorem State.setA_mapper (v : Byte) (s : State) : (s.setA v).mapper = s.mapper := rfl
@[simp] theorem State.setA_buttons0 (v : Byte) (s : State) : (s.setA v).buttons0 = s.buttons0 := rfl
@[simp] theorem State.setA_buttons1 (v : Byte) (s : State) : (s.setA v).buttons1 = s.buttons1 := rfl
@[simp] theorem State.setA_cfg (v : Byte) (s : State) : (s.setA v).cfg = s.cfg := rfl
@[simp] theorem State.setA_snap (v : Byte) (s : State) : (s.setA v).snap = s.snap := rfl
@[simp] theorem State.setA_undSeen (v : Byte) (s : State) : (s.setA v).undSeen = s.undSeen := rfl
@[simp] theorem State.setA_frameCycle (v : Byte) (s : State) : (s.setA v).frameCycle = s.frameCycle := rfl
@[simp] theorem State.setA_framesReady (v : Byte) (s : State) : (s.setA v).framesReady = s.framesReady := rfl

/-! ### State.setX -/

@[simp] theorem State.setX_cpu (v : Byte) (s : State) : (s.setX v).cpu = { s.cpu with x := v } := rfl
@[simp] theorem State.setX_ram (v : Byte) (s : State) : (s.setX v).ram = s.ram := rfl
@[simp] theorem State.setX_pads (v : Byte) (s : State) : (s.setX v).pads = s.pads := rfl
@[simp] theorem State.setX_vram (v : Byte) (s : State) : (s.setX v).vram = s.vram := rfl
@[simp] theorem State.setX_palette (v : Byte) (s : State) : (s.setX v).palette = s.palette := rfl
@[simp] theorem State.setX_ppu (v : Byte) (s : State) : (s.setX v).ppu = s.ppu := rfl
@[simp] theorem State.setX_apu (v : Byte) (s : State) : (s.setX v).apu = s.apu := rfl
@[simp] theorem State.setX_prgRam (v : Byte) (s : State) : (s.setX v).prgRam = s.prgRam := rfl
@[simp] theorem State.setX_chrRam (v : Byte) (s : State) : (s.setX v).chrRam = s.chrRam := rfl
@[simp] theorem State.setX_mapper (v : Byte) (s : State) : (s.setX v).mapper = s.mapper := rfl
@[simp] theorem State.setX_buttons0 (v : Byte) (s : State) : (s.setX v).buttons0 = s.buttons0 := rfl
@[simp] theorem State.setX_buttons1 (v : Byte) (s : State) : (s.setX v).buttons1 = s.buttons1 := rfl
@[simp] theorem State.setX_cfg (v : Byte) (s : State) : (s.setX v).cfg = s.cfg := rfl
@[simp] theorem State.setX_snap (v : Byte) (s : State) : (s.setX v).snap = s.snap := rfl
@[simp] theorem State.setX_undSeen (v : Byte) (s : State) : (s.setX v).undSeen = s.undSeen := rfl
@[simp] theorem State.setX_frameCycle (v : Byte) (s : State) : (s.setX v).frameCycle = s.frameCycle := rfl
@[simp] theorem State.setX_framesReady (v : Byte) (s : State) : (s.setX v).framesReady = s.framesReady := rfl

/-! ### State.setY -/

@[simp] theorem State.setY_cpu (v : Byte) (s : State) : (s.setY v).cpu = { s.cpu with y := v } := rfl
@[simp] theorem State.setY_ram (v : Byte) (s : State) : (s.setY v).ram = s.ram := rfl
@[simp] theorem State.setY_pads (v : Byte) (s : State) : (s.setY v).pads = s.pads := rfl
@[simp] theorem State.setY_vram (v : Byte) (s : State) : (s.setY v).vram = s.vram := rfl
@[simp] theorem State.setY_palette (v : Byte) (s : State) : (s.setY v).palette = s.palette := rfl
@[simp] theorem State.setY_ppu (v : Byte) (s : State) : (s.setY v).ppu = s.ppu := rfl
@[simp] theorem State.setY_apu (v : Byte) (s : State) : (s.setY v).apu = s.apu := rfl
@[simp] theorem State.setY_prgRam (v : Byte) (s : State) : (s.setY v).prgRam = s.prgRam := rfl
@[simp] theorem State.setY_chrRam (v : Byte) (s : State) : (s.setY v).chrRam = s.chrRam := rfl
@[simp] theorem State.setY_mapper (v : Byte) (s : State) : (s.setY v).mapper = s.mapper := rfl
@[simp] theorem State.setY_buttons0 (v : Byte) (s : State) : (s.setY v).buttons0 = s.buttons0 := rfl
@[simp] theorem State.setY_buttons1 (v : Byte) (s : State) : (s.setY v).buttons1 = s.buttons1 := rfl
@[simp] theorem State.setY_cfg (v : Byte) (s : State) : (s.setY v).cfg = s.cfg := rfl
@[simp] theorem State.setY_snap (v : Byte) (s : State) : (s.setY v).snap = s.snap := rfl
@[simp] theorem State.setY_undSeen (v : Byte) (s : State) : (s.setY v).undSeen = s.undSeen := rfl
@[simp] theorem State.setY_frameCycle (v : Byte) (s : State) : (s.setY v).frameCycle = s.frameCycle := rfl
@[simp] theorem State.setY_framesReady (v : Byte) (s : State) : (s.setY v).framesReady = s.framesReady := rfl

/-! ### State.setSp -/

@[simp] theorem State.setSp_cpu (v : Byte) (s : State) : (s.setSp v).cpu = { s.cpu with sp := v } := rfl
@[simp] theorem State.setSp_ram (v : Byte) (s : State) : (s.setSp v).ram = s.ram := rfl
@[simp] theorem State.setSp_pads (v : Byte) (s : State) : (s.setSp v).pads = s.pads := rfl
@[simp] theorem State.setSp_vram (v : Byte) (s : State) : (s.setSp v).vram = s.vram := rfl
@[simp] theorem State.setSp_palette (v : Byte) (s : State) : (s.setSp v).palette = s.palette := rfl
@[simp] theorem State.setSp_ppu (v : Byte) (s : State) : (s.setSp v).ppu = s.ppu := rfl
@[simp] theorem State.setSp_apu (v : Byte) (s : State) : (s.setSp v).apu = s.apu := rfl
@[simp] theorem State.setSp_prgRam (v : Byte) (s : State) : (s.setSp v).prgRam = s.prgRam := rfl
@[simp] theorem State.setSp_chrRam (v : Byte) (s : State) : (s.setSp v).chrRam = s.chrRam := rfl
@[simp] theorem State.setSp_mapper (v : Byte) (s : State) : (s.setSp v).mapper = s.mapper := rfl
@[simp] theorem State.setSp_buttons0 (v : Byte) (s : State) : (s.setSp v).buttons0 = s.buttons0 := rfl
@[simp] theorem State.setSp_buttons1 (v : Byte) (s : State) : (s.setSp v).buttons1 = s.buttons1 := rfl
@[simp] theorem State.setSp_cfg (v : Byte) (s : State) : (s.setSp v).cfg = s.cfg := rfl
@[simp] theorem State.setSp_snap (v : Byte) (s : State) : (s.setSp v).snap = s.snap := rfl
@[simp] theorem State.setSp_undSeen (v : Byte) (s : State) : (s.setSp v).undSeen = s.undSeen := rfl
@[simp] theorem State.setSp_frameCycle (v : Byte) (s : State) : (s.setSp v).frameCycle = s.frameCycle := rfl
@[simp] theorem State.setSp_framesReady (v : Byte) (s : State) : (s.setSp v).framesReady = s.framesReady := rfl

/-! ### State.setPc -/

@[simp] theorem State.setPc_cpu (v : Word) (s : State) : (s.setPc v).cpu = { s.cpu with pc := v } := rfl
@[simp] theorem State.setPc_ram (v : Word) (s : State) : (s.setPc v).ram = s.ram := rfl
@[simp] theorem State.setPc_pads (v : Word) (s : State) : (s.setPc v).pads = s.pads := rfl
@[simp] theorem State.setPc_vram (v : Word) (s : State) : (s.setPc v).vram = s.vram := rfl
@[simp] theorem State.setPc_palette (v : Word) (s : State) : (s.setPc v).palette = s.palette := rfl
@[simp] theorem State.setPc_ppu (v : Word) (s : State) : (s.setPc v).ppu = s.ppu := rfl
@[simp] theorem State.setPc_apu (v : Word) (s : State) : (s.setPc v).apu = s.apu := rfl
@[simp] theorem State.setPc_prgRam (v : Word) (s : State) : (s.setPc v).prgRam = s.prgRam := rfl
@[simp] theorem State.setPc_chrRam (v : Word) (s : State) : (s.setPc v).chrRam = s.chrRam := rfl
@[simp] theorem State.setPc_mapper (v : Word) (s : State) : (s.setPc v).mapper = s.mapper := rfl
@[simp] theorem State.setPc_buttons0 (v : Word) (s : State) : (s.setPc v).buttons0 = s.buttons0 := rfl
@[simp] theorem State.setPc_buttons1 (v : Word) (s : State) : (s.setPc v).buttons1 = s.buttons1 := rfl
@[simp] theorem State.setPc_cfg (v : Word) (s : State) : (s.setPc v).cfg = s.cfg := rfl
@[simp] theorem State.setPc_snap (v : Word) (s : State) : (s.setPc v).snap = s.snap := rfl
@[simp] theorem State.setPc_undSeen (v : Word) (s : State) : (s.setPc v).undSeen = s.undSeen := rfl
@[simp] theorem State.setPc_frameCycle (v : Word) (s : State) : (s.setPc v).frameCycle = s.frameCycle := rfl
@[simp] theorem State.setPc_framesReady (v : Word) (s : State) : (s.setPc v).framesReady = s.framesReady := rfl

/-! ### State.setFlags -/

@[simp] theorem State.setFlags_cpu (f : Flags) (s : State) : (s.setFlags f).cpu = { s.cpu with flags := f } := rfl
@[simp] theorem State.setFlags_ram (f : Flags) (s : State) : (s.setFlags f).ram = s.ram := rfl
@[simp] theorem State.setFlags_pads (f : Flags) (s : State) : (s.setFlags f).pads = s.pads := rfl
@[simp] theorem State.setFlags_vram (f : Flags) (s : State) : (s.setFlags f).vram = s.vram := rfl
@[simp] theorem State.setFlags_palette (f : Flags) (s : State) : (s.setFlags f).palette = s.palette := rfl
@[simp] theorem State.setFlags_ppu (f : Flags) (s : State) : (s.setFlags f).ppu = s.ppu := rfl
@[simp] theorem State.setFlags_apu (f : Flags) (s : State) : (s.setFlags f).apu = s.apu := rfl
@[simp] theorem State.setFlags_prgRam (f : Flags) (s : State) : (s.setFlags f).prgRam = s.prgRam := rfl
@[simp] theorem State.setFlags_chrRam (f : Flags) (s : State) : (s.setFlags f).chrRam = s.chrRam := rfl
@[simp] theorem State.setFlags_mapper (f : Flags) (s : State) : (s.setFlags f).mapper = s.mapper := rfl
@[simp] theorem State.setFlags_buttons0 (f : Flags) (s : State) : (s.setFlags f).buttons0 = s.buttons0 := rfl
@[simp] theorem State.setFlags_buttons1 (f : Flags) (s : State) : (s.setFlags f).buttons1 = s.buttons1 := rfl
@[simp] theorem State.setFlags_cfg (f : Flags) (s : State) : (s.setFlags f).cfg = s.cfg := rfl
@[simp] theorem State.setFlags_snap (f : Flags) (s : State) : (s.setFlags f).snap = s.snap := rfl
@[simp] theorem State.setFlags_undSeen (f : Flags) (s : State) : (s.setFlags f).undSeen = s.undSeen := rfl
@[simp] theorem State.setFlags_frameCycle (f : Flags) (s : State) : (s.setFlags f).frameCycle = s.frameCycle := rfl
@[simp] theorem State.setFlags_framesReady (f : Flags) (s : State) : (s.setFlags f).framesReady = s.framesReady := rfl

/-! ### State.setZN -/

@[simp] theorem State.setZN_cpu (r : Byte) (s : State) : (s.setZN r).cpu = { s.cpu with flags := Machine.setZN r s.cpu.flags } := rfl
@[simp] theorem State.setZN_ram (r : Byte) (s : State) : (s.setZN r).ram = s.ram := rfl
@[simp] theorem State.setZN_pads (r : Byte) (s : State) : (s.setZN r).pads = s.pads := rfl
@[simp] theorem State.setZN_vram (r : Byte) (s : State) : (s.setZN r).vram = s.vram := rfl
@[simp] theorem State.setZN_palette (r : Byte) (s : State) : (s.setZN r).palette = s.palette := rfl
@[simp] theorem State.setZN_ppu (r : Byte) (s : State) : (s.setZN r).ppu = s.ppu := rfl
@[simp] theorem State.setZN_apu (r : Byte) (s : State) : (s.setZN r).apu = s.apu := rfl
@[simp] theorem State.setZN_prgRam (r : Byte) (s : State) : (s.setZN r).prgRam = s.prgRam := rfl
@[simp] theorem State.setZN_chrRam (r : Byte) (s : State) : (s.setZN r).chrRam = s.chrRam := rfl
@[simp] theorem State.setZN_mapper (r : Byte) (s : State) : (s.setZN r).mapper = s.mapper := rfl
@[simp] theorem State.setZN_buttons0 (r : Byte) (s : State) : (s.setZN r).buttons0 = s.buttons0 := rfl
@[simp] theorem State.setZN_buttons1 (r : Byte) (s : State) : (s.setZN r).buttons1 = s.buttons1 := rfl
@[simp] theorem State.setZN_cfg (r : Byte) (s : State) : (s.setZN r).cfg = s.cfg := rfl
@[simp] theorem State.setZN_snap (r : Byte) (s : State) : (s.setZN r).snap = s.snap := rfl
@[simp] theorem State.setZN_undSeen (r : Byte) (s : State) : (s.setZN r).undSeen = s.undSeen := rfl
@[simp] theorem State.setZN_frameCycle (r : Byte) (s : State) : (s.setZN r).frameCycle = s.frameCycle := rfl
@[simp] theorem State.setZN_framesReady (r : Byte) (s : State) : (s.setZN r).framesReady = s.framesReady := rfl

/-! ### State.finish -/

@[simp] theorem State.finish_cpu (n : Nat) (s : State) : (s.finish n).cpu = { s.cpu with wait := n - 1 + s.cpu.dmaStall, dmaStall := 0 } := rfl
@[simp] theorem State.finish_ram (n : Nat) (s : State) : (s.finish n).ram = s.ram := rfl
@[simp] theorem State.finish_pads (n : Nat) (s : State) : (s.finish n).pads = s.pads := rfl
@[simp] theorem State.finish_vram (n : Nat) (s : State) : (s.finish n).vram = s.vram := rfl
@[simp] theorem State.finish_palette (n : Nat) (s : State) : (s.finish n).palette = s.palette := rfl
@[simp] theorem State.finish_ppu (n : Nat) (s : State) : (s.finish n).ppu = s.ppu := rfl
@[simp] theorem State.finish_apu (n : Nat) (s : State) : (s.finish n).apu = s.apu := rfl
@[simp] theorem State.finish_prgRam (n : Nat) (s : State) : (s.finish n).prgRam = s.prgRam := rfl
@[simp] theorem State.finish_chrRam (n : Nat) (s : State) : (s.finish n).chrRam = s.chrRam := rfl
@[simp] theorem State.finish_mapper (n : Nat) (s : State) : (s.finish n).mapper = s.mapper := rfl
@[simp] theorem State.finish_buttons0 (n : Nat) (s : State) : (s.finish n).buttons0 = s.buttons0 := rfl
@[simp] theorem State.finish_buttons1 (n : Nat) (s : State) : (s.finish n).buttons1 = s.buttons1 := rfl
@[simp] theorem State.finish_cfg (n : Nat) (s : State) : (s.finish n).cfg = s.cfg := rfl
@[simp] theorem State.finish_snap (n : Nat) (s : State) : (s.finish n).snap = s.snap := rfl
@[simp] theorem State.finish_undSeen (n : Nat) (s : State) : (s.finish n).undSeen = s.undSeen := rfl
@[simp] theorem State.finish_frameCycle (n : Nat) (s : State) : (s.finish n).frameCycle = s.frameCycle := rfl
@[simp] theorem State.finish_framesReady (n : Nat) (s : State) : (s.finish n).framesReady = s.framesReady := rfl

end Sys2Proof.Machine
end

