-- ==== Sys2Proof/Laws/Bus.lean ====
section
/-! SUPPORT. Laws/Bus.lean: what a read and a write of the CPU bus can do, once. A read touches the picture unit and
the controller ports only; a write touches the unit its address decodes to; an OAM DMA is 256 reads and 256 OAM
writes. -/

namespace Sys2Proof.Machine

/-! ## Reads -/

/-- A read of the CPU bus changes nothing but the picture unit and the controller ports. -/
theorem cpuRead_eq (a : Word) (s : State) :
    (cpuRead a s).2 = { s with ppu := (cpuRead a s).2.ppu, pads := (cpuRead a s).2.pads } := by
  unfold cpuRead ppuReadReg readStatus readData readPad0 readPad1
  split
  · rfl
  split
  · split <;> first | rfl | (dsimp only; split <;> rfl)
  split
  · rfl
  split
  · split <;> rfl
  split
  · split <;> rfl
  split
  · rfl
  split <;> rfl

@[simp] theorem cpuRead_cpu (a : Word) (s : State) : (cpuRead a s).2.cpu = s.cpu := by rw [cpuRead_eq]
@[simp] theorem cpuRead_ram (a : Word) (s : State) : (cpuRead a s).2.ram = s.ram := by rw [cpuRead_eq]
@[simp] theorem cpuRead_vram (a : Word) (s : State) : (cpuRead a s).2.vram = s.vram := by rw [cpuRead_eq]
@[simp] theorem cpuRead_palette (a : Word) (s : State) : (cpuRead a s).2.palette = s.palette := by rw [cpuRead_eq]
@[simp] theorem cpuRead_apu (a : Word) (s : State) : (cpuRead a s).2.apu = s.apu := by rw [cpuRead_eq]
@[simp] theorem cpuRead_prgRam (a : Word) (s : State) : (cpuRead a s).2.prgRam = s.prgRam := by rw [cpuRead_eq]
@[simp] theorem cpuRead_chrRam (a : Word) (s : State) : (cpuRead a s).2.chrRam = s.chrRam := by rw [cpuRead_eq]
@[simp] theorem cpuRead_mapper (a : Word) (s : State) : (cpuRead a s).2.mapper = s.mapper := by rw [cpuRead_eq]
@[simp] theorem cpuRead_buttons0 (a : Word) (s : State) : (cpuRead a s).2.buttons0 = s.buttons0 := by rw [cpuRead_eq]
@[simp] theorem cpuRead_buttons1 (a : Word) (s : State) : (cpuRead a s).2.buttons1 = s.buttons1 := by rw [cpuRead_eq]
@[simp] theorem cpuRead_cfg (a : Word) (s : State) : (cpuRead a s).2.cfg = s.cfg := by rw [cpuRead_eq]
@[simp] theorem cpuRead_snap (a : Word) (s : State) : (cpuRead a s).2.snap = s.snap := by rw [cpuRead_eq]
@[simp] theorem cpuRead_undSeen (a : Word) (s : State) : (cpuRead a s).2.undSeen = s.undSeen := by rw [cpuRead_eq]
@[simp] theorem cpuRead_frameCycle (a : Word) (s : State) : (cpuRead a s).2.frameCycle = s.frameCycle := by rw [cpuRead_eq]
@[simp] theorem cpuRead_framesReady (a : Word) (s : State) : (cpuRead a s).2.framesReady = s.framesReady := by rw [cpuRead_eq]

/-- A read never writes OAM or the framebuffer. -/
theorem cpuRead_oam_fb (a : Word) (s : State) :
    (cpuRead a s).2.ppu.oam = s.ppu.oam ∧ (cpuRead a s).2.ppu.fb = s.ppu.fb := by
  unfold cpuRead ppuReadReg readStatus readData readPad0 readPad1
  split
  · exact ⟨rfl, rfl⟩
  split
  · split <;> first | exact ⟨rfl, rfl⟩ | (dsimp only; split <;> exact ⟨rfl, rfl⟩)
  split
  · exact ⟨rfl, rfl⟩
  split
  · split <;> exact ⟨rfl, rfl⟩
  split
  · split <;> exact ⟨rfl, rfl⟩
  split
  · exact ⟨rfl, rfl⟩
  split <;> exact ⟨rfl, rfl⟩

@[simp] theorem cpuRead_oam (a : Word) (s : State) : (cpuRead a s).2.ppu.oam = s.ppu.oam := (cpuRead_oam_fb a s).1
@[simp] theorem cpuRead_fb (a : Word) (s : State) : (cpuRead a s).2.ppu.fb = s.ppu.fb := (cpuRead_oam_fb a s).2

theorem field_low3 (a : Word) : (field a 0 3).toNat = a.toNat % 8 := by
  simp [field, BitVec.extractLsb'_toNat]

/-- A read at an address that is not on the list of R81 changes nothing. -/
theorem cpuRead_quiet {a : Word} (h : hasReadEffect a = false) (s : State) : (cpuRead a s).2 = s := by
  simp only [hasReadEffect, Bool.or_eq_false_iff, Bool.and_eq_false_iff, decide_eq_false_iff_not, beq_eq_false_iff_ne,
    ne_eq] at h
  obtain ⟨⟨h1, h2⟩, h3⟩ := h
  unfold cpuRead
  split
  · rfl
  split
  · next h4 h5 =>
    have h6 : ¬ a.toNat % 8 = 2 ∧ ¬ a.toNat % 8 = 7 := by
      rcases h1 with (h1 | h1) | h1
      · bv_omega
      · exact absurd h5 h1
      · exact h1
    unfold ppuReadReg
    rw [field_low3]
    split <;> first | rfl | omega
  split
  · rfl
  split
  · rfl
  split <;> rfl

/-- Memory has no read side effect. -/
theorem isMemory_quiet {a : Word} (h : isMemory a = true) : hasReadEffect a = false := by
  simp only [isMemory, Bool.or_eq_true, decide_eq_true_eq] at h
  simp only [hasReadEffect, Bool.or_eq_false_iff, Bool.and_eq_false_iff, decide_eq_false_iff_not, beq_eq_false_iff_ne,
    ne_eq]
  refine ⟨⟨?_, by bv_omega⟩, by bv_omega⟩
  rcases h with h | h
  · exact .inl (.inl (by bv_omega))
  · exact .inl (.inr (by bv_omega))

theorem cpuRead_memory {a : Word} (h : isMemory a = true) (s : State) : (cpuRead a s).2 = s :=
  cpuRead_quiet (isMemory_quiet h) s

/-- What a read of memory returns is fixed by the two RAMs, the cartridge and the bank registers. -/
theorem byteAt_congr {s t : State} (hr : t.ram = s.ram) (hp : t.prgRam = s.prgRam) (hm : t.mapper = s.mapper)
    (hc : t.cfg.cart = s.cfg.cart) : MemoryKept s t := by
  intro a ha
  simp only [isMemory, Bool.or_eq_true, decide_eq_true_eq] at ha
  unfold byteAt cpuRead
  by_cases h1 : a < 0x2000
  · simp only [if_pos h1, hr]
  · have h2 : 0x6000 ≤ a := ha.resolve_left h1
    simp only [if_neg h1, if_neg (show ¬ a < 0x4000 by bv_omega), if_neg (show ¬ a = 0x4015 by bv_omega),
      if_neg (show ¬ a = 0x4016 by bv_omega), if_neg (show ¬ a = 0x4017 by bv_omega),
      if_neg (show ¬ a < 0x6000 by bv_omega), hp, hm, hc]
    split <;> rfl

theorem MemoryKept.refl (s : State) : MemoryKept s s := fun _ _ => rfl

theorem MemoryKept.trans {s t u : State} (h : MemoryKept s t) (h' : MemoryKept t u) : MemoryKept s u :=
  fun a ha => (h' a ha).trans (h a ha)

/-- A read keeps all memory. -/
theorem cpuRead_memoryKept (a : Word) (s : State) : MemoryKept s (cpuRead a s).2 :=
  byteAt_congr (by simp) (by simp) (by simp) (by simp)

/-! ## OAM DMA -/

theorem dmaCopy_succ (page : Byte) (n : Nat) (i : Byte) (s : State) :
    dmaCopy page (n + 1) i s = dmaCopy page n (i + 1)
      (oamStore ((cpuRead (word page i) s).2.ppu.oamaddr + i) (cpuRead (word page i) s).1 (cpuRead (word page i) s).2) :=
  rfl

/-- An OAM DMA changes nothing but the picture unit and the controller ports. -/
theorem dmaCopy_eq (page : Byte) : ∀ (n : Nat) (i : Byte) (s : State),
    dmaCopy page n i s =
      { s with ppu := (dmaCopy page n i s).ppu, pads := (dmaCopy page n i s).pads }
  | 0, _, _ => rfl
  | n + 1, i, s => by
    rw [dmaCopy_succ, dmaCopy_eq page n (i + 1)]
    simp only [oamStore, cpuRead_cpu, cpuRead_ram, cpuRead_vram, cpuRead_palette, cpuRead_apu, cpuRead_prgRam,
      cpuRead_chrRam, cpuRead_mapper, cpuRead_buttons0, cpuRead_buttons1, cpuRead_cfg, cpuRead_snap, cpuRead_undSeen,
      cpuRead_framesReady, cpuRead_frameCycle]

@[simp] theorem dmaCopy_cpu (page : Byte) (n : Nat) (i : Byte) (s : State) : (dmaCopy page n i s).cpu = s.cpu := by rw [dmaCopy_eq]
@[simp] theorem dmaCopy_ram (page : Byte) (n : Nat) (i : Byte) (s : State) : (dmaCopy page n i s).ram = s.ram := by rw [dmaCopy_eq]
@[simp] theorem dmaCopy_vram (page : Byte) (n : Nat) (i : Byte) (s : State) : (dmaCopy page n i s).vram = s.vram := by rw [dmaCopy_eq]
@[simp] theorem dmaCopy_palette (page : Byte) (n : Nat) (i : Byte) (s : State) : (dmaCopy page n i s).palette = s.palette := by rw [dmaCopy_eq]
@[simp] theorem dmaCopy_apu (page : Byte) (n : Nat) (i : Byte) (s : State) : (dmaCopy page n i s).apu = s.apu := by rw [dmaCopy_eq]
@[simp] theorem dmaCopy_prgRam (page : Byte) (n : Nat) (i : Byte) (s : State) : (dmaCopy page n i s).prgRam = s.prgRam := by rw [dmaCopy_eq]
@[simp] theorem dmaCopy_chrRam (page : Byte) (n : Nat) (i : Byte) (s : State) : (dmaCopy page n i s).chrRam = s.chrRam := by rw [dmaCopy_eq]
@[simp] theorem dmaCopy_mapper (page : Byte) (n : Nat) (i : Byte) (s : State) : (dmaCopy page n i s).mapper = s.mapper := by rw [dmaCopy_eq]
@[simp] theorem dmaCopy_buttons0 (page : Byte) (n : Nat) (i : Byte) (s : State) : (dmaCopy page n i s).buttons0 = s.buttons0 := by rw [dmaCopy_eq]
@[simp] theorem dmaCopy_buttons1 (page : Byte) (n : Nat) (i : Byte) (s : State) : (dmaCopy page n i s).buttons1 = s.buttons1 := by rw [dmaCopy_eq]
@[simp] theorem dmaCopy_cfg (page : Byte) (n : Nat) (i : Byte) (s : State) : (dmaCopy page n i s).cfg = s.cfg := by rw [dmaCopy_eq]
@[simp] theorem dmaCopy_snap (page : Byte) (n : Nat) (i : Byte) (s : State) : (dmaCopy page n i s).snap = s.snap := by rw [dmaCopy_eq]
@[simp] theorem dmaCopy_undSeen (page : Byte) (n : Nat) (i : Byte) (s : State) : (dmaCopy page n i s).undSeen = s.undSeen := by rw [dmaCopy_eq]
@[simp] theorem dmaCopy_frameCycle (page : Byte) (n : Nat) (i : Byte) (s : State) : (dmaCopy page n i s).frameCycle = s.frameCycle := by rw [dmaCopy_eq]
@[simp] theorem dmaCopy_framesReady (page : Byte) (n : Nat) (i : Byte) (s : State) : (dmaCopy page n i s).framesReady = s.framesReady := by rw [dmaCopy_eq]

/-! ## Writes -/

/-- A picture-bus write changes the three picture memories only. -/
theorem ppuWrite_eq (a : Word) (d : Byte) (s : State) :
    ppuWrite a d s = { s with
      chrRam := (ppuWrite a d s).chrRam, vram := (ppuWrite a d s).vram, palette := (ppuWrite a d s).palette } := by
  unfold ppuWrite
  dsimp only
  split
  · rfl
  split <;> rfl

@[simp] theorem ppuWrite_cpu (a : Word) (d : Byte) (s : State) : (ppuWrite a d s).cpu = s.cpu := by rw [ppuWrite_eq]
@[simp] theorem ppuWrite_ram (a : Word) (d : Byte) (s : State) : (ppuWrite a d s).ram = s.ram := by rw [ppuWrite_eq]
@[simp] theorem ppuWrite_pads (a : Word) (d : Byte) (s : State) : (ppuWrite a d s).pads = s.pads := by rw [ppuWrite_eq]
@[simp] theorem ppuWrite_ppu (a : Word) (d : Byte) (s : State) : (ppuWrite a d s).ppu = s.ppu := by rw [ppuWrite_eq]
@[simp] theorem ppuWrite_apu (a : Word) (d : Byte) (s : State) : (ppuWrite a d s).apu = s.apu := by rw [ppuWrite_eq]
@[simp] theorem ppuWrite_prgRam (a : Word) (d : Byte) (s : State) : (ppuWrite a d s).prgRam = s.prgRam := by rw [ppuWrite_eq]
@[simp] theorem ppuWrite_mapper (a : Word) (d : Byte) (s : State) : (ppuWrite a d s).mapper = s.mapper := by rw [ppuWrite_eq]
@[simp] theorem ppuWrite_buttons0 (a : Word) (d : Byte) (s : State) : (ppuWrite a d s).buttons0 = s.buttons0 := by rw [ppuWrite_eq]
@[simp] theorem ppuWrite_buttons1 (a : Word) (d : Byte) (s : State) : (ppuWrite a d s).buttons1 = s.buttons1 := by rw [ppuWrite_eq]
@[simp] theorem ppuWrite_cfg (a : Word) (d : Byte) (s : State) : (ppuWrite a d s).cfg = s.cfg := by rw [ppuWrite_eq]
@[simp] theorem ppuWrite_snap (a : Word) (d : Byte) (s : State) : (ppuWrite a d s).snap = s.snap := by rw [ppuWrite_eq]
@[simp] theorem ppuWrite_undSeen (a : Word) (d : Byte) (s : State) : (ppuWrite a d s).undSeen = s.undSeen := by rw [ppuWrite_eq]
@[simp] theorem ppuWrite_frameCycle (a : Word) (d : Byte) (s : State) : (ppuWrite a d s).frameCycle = s.frameCycle := by rw [ppuWrite_eq]
@[simp] theorem ppuWrite_framesReady (a : Word) (d : Byte) (s : State) : (ppuWrite a d s).framesReady = s.framesReady := by rw [ppuWrite_eq]

/-- A PPU register write changes the picture unit and the three picture memories only. -/
theorem ppuWriteReg_eq (r : BitVec 3) (d : Byte) (s : State) :
    ppuWriteReg r d s = { s with
      ppu := (ppuWriteReg r d s).ppu, chrRam := (ppuWriteReg r d s).chrRam, vram := (ppuWriteReg r d s).vram,
      palette := (ppuWriteReg r d s).palette } := by
  unfold ppuWriteReg
  split <;> first | rfl | (unfold writeData; dsimp only; rw [ppuWrite_eq])

@[simp] theorem ppuWriteReg_cpu (r : BitVec 3) (d : Byte) (s : State) : (ppuWriteReg r d s).cpu = s.cpu := by
  rw [ppuWriteReg_eq]
@[simp] theorem ppuWriteReg_ram (r : BitVec 3) (d : Byte) (s : State) : (ppuWriteReg r d s).ram = s.ram := by
  rw [ppuWriteReg_eq]
@[simp] theorem ppuWriteReg_pads (r : BitVec 3) (d : Byte) (s : State) : (ppuWriteReg r d s).pads = s.pads := by
  rw [ppuWriteReg_eq]
@[simp] theorem ppuWriteReg_apu (r : BitVec 3) (d : Byte) (s : State) : (ppuWriteReg r d s).apu = s.apu := by
  rw [ppuWriteReg_eq]
@[simp] theorem ppuWriteReg_prgRam (r : BitVec 3) (d : Byte) (s : State) : (ppuWriteReg r d s).prgRam = s.prgRam := by
  rw [ppuWriteReg_eq]
@[simp] theorem ppuWriteReg_mapper (r : BitVec 3) (d : Byte) (s : State) : (ppuWriteReg r d s).mapper = s.mapper := by
  rw [ppuWriteReg_eq]
@[simp] theorem ppuWriteReg_buttons0 (r : BitVec 3) (d : Byte) (s : State) : (ppuWriteReg r d s).buttons0 = s.buttons0 := by
  rw [ppuWriteReg_eq]
@[simp] theorem ppuWriteReg_buttons1 (r : BitVec 3) (d : Byte) (s : State) : (ppuWriteReg r d s).buttons1 = s.buttons1 := by
  rw [ppuWriteReg_eq]
@[simp] theorem ppuWriteReg_cfg (r : BitVec 3) (d : Byte) (s : State) : (ppuWriteReg r d s).cfg = s.cfg := by
  rw [ppuWriteReg_eq]
@[simp] theorem ppuWriteReg_snap (r : BitVec 3) (d : Byte) (s : State) : (ppuWriteReg r d s).snap = s.snap := by
  rw [ppuWriteReg_eq]
@[simp] theorem ppuWriteReg_undSeen (r : BitVec 3) (d : Byte) (s : State) : (ppuWriteReg r d s).undSeen = s.undSeen := by
  rw [ppuWriteReg_eq]
@[simp] theorem ppuWriteReg_frameCycle (r : BitVec 3) (d : Byte) (s : State) : (ppuWriteReg r d s).frameCycle = s.frameCycle := by
  rw [ppuWriteReg_eq]
@[simp] theorem ppuWriteReg_framesReady (r : BitVec 3) (d : Byte) (s : State) : (ppuWriteReg r d s).framesReady = s.framesReady := by
  rw [ppuWriteReg_eq]

@[simp] theorem oamDma_cpu (p : Byte) (s : State) :
    (oamDma p s).cpu = { s.cpu with dmaStall := s.cpu.dmaStall + 513 + s.cpu.cyc % 2 } := by
  simp only [oamDma, dmaCopy_cpu]; rfl

@[simp] theorem oamDma_ram (p : Byte) (s : State) : (oamDma p s).ram = s.ram := by
  simp only [oamDma, dmaCopy_ram]
@[simp] theorem oamDma_vram (p : Byte) (s : State) : (oamDma p s).vram = s.vram := by
  simp only [oamDma, dmaCopy_vram]
@[simp] theorem oamDma_palette (p : Byte) (s : State) : (oamDma p s).palette = s.palette := by
  simp only [oamDma, dmaCopy_palette]
@[simp] theorem oamDma_apu (p : Byte) (s : State) : (oamDma p s).apu = s.apu := by
  simp only [oamDma, dmaCopy_apu]
@[simp] theorem oamDma_prgRam (p : Byte) (s : State) : (oamDma p s).prgRam = s.prgRam := by
  simp only [oamDma, dmaCopy_prgRam]
@[simp] theorem oamDma_chrRam (p : Byte) (s : State) : (oamDma p s).chrRam = s.chrRam := by
  simp only [oamDma, dmaCopy_chrRam]
@[simp] theorem oamDma_mapper (p : Byte) (s : State) : (oamDma p s).mapper = s.mapper := by
  simp only [oamDma, dmaCopy_mapper]
@[simp] theorem oamDma_buttons0 (p : Byte) (s : State) : (oamDma p s).buttons0 = s.buttons0 := by
  simp only [oamDma, dmaCopy_buttons0]
@[simp] theorem oamDma_buttons1 (p : Byte) (s : State) : (oamDma p s).buttons1 = s.buttons1 := by
  simp only [oamDma, dmaCopy_buttons1]
@[simp] theorem oamDma_cfg (p : Byte) (s : State) : (oamDma p s).cfg = s.cfg := by
  simp only [oamDma, dmaCopy_cfg]
@[simp] theorem oamDma_snap (p : Byte) (s : State) : (oamDma p s).snap = s.snap := by
  simp only [oamDma, dmaCopy_snap]
@[simp] theorem oamDma_undSeen (p : Byte) (s : State) : (oamDma p s).undSeen = s.undSeen := by
  simp only [oamDma, dmaCopy_undSeen]
@[simp] theorem oamDma_frameCycle (p : Byte) (s : State) : (oamDma p s).frameCycle = s.frameCycle := by
  simp only [oamDma, dmaCopy_frameCycle]
@[simp] theorem oamDma_framesReady (p : Byte) (s : State) : (oamDma p s).framesReady = s.framesReady := by
  simp only [oamDma, dmaCopy_framesReady]

/-- The strobe write changes the controller ports only. -/
theorem writeStrobe_eq (d : Byte) (s : State) : writeStrobe d s = { s with pads := (writeStrobe d s).pads } := by
  unfold writeStrobe
  dsimp only
  split <;> rfl

/-- Where a write goes: the decode table 20_memory.md R71, one row each. -/
theorem cpuWrite_cases (a : Word) (v : Byte) (s : State) :
    (a < 0x2000 ∧ cpuWrite a v s = { s with ram := s.ram.write (a &&& 0x07FF).toNat v }) ∨
    (0x2000 ≤ a ∧ a < 0x4000 ∧ cpuWrite a v s = ppuWriteReg (field a 0 3) v s) ∨
    (a = 0x4014 ∧ cpuWrite a v s = oamDma v s) ∨
    (a = 0x4016 ∧ cpuWrite a v s = writeStrobe v s) ∨
    (0x4000 ≤ a ∧ a < 0x4018 ∧ a ≠ 0x4014 ∧ a ≠ 0x4016 ∧
      cpuWrite a v s = { s with apu := apuWrite s.cfg.params (field a 0 5) v s.apu }) ∨
    (0x4018 ≤ a ∧ a < 0x6000 ∧ cpuWrite a v s = s) ∨
    (0x6000 ≤ a ∧ a < 0x8000 ∧ s.cfg.cart.hasPrgRam = true ∧
      cpuWrite a v s = { s with prgRam := s.prgRam.write (prgRamOffset a) v }) ∨
    (0x6000 ≤ a ∧ a < 0x8000 ∧ s.cfg.cart.hasPrgRam = false ∧ cpuWrite a v s = s) ∨
    (0x8000 ≤ a ∧ cpuWrite a v s = { s with mapper := writePrg s.cfg.cart a v s.mapper }) := by
  have e : cpuWrite a v s = cpuWrite a v s := rfl
  conv at e => rhs; unfold cpuWrite
  by_cases h1 : a < 0x2000
  · rw [if_pos h1] at e; exact .inl ⟨h1, e⟩
  rw [if_neg h1] at e
  by_cases h2 : a < 0x4000
  · rw [if_pos h2] at e; exact .inr (.inl ⟨by bv_omega, h2, e⟩)
  rw [if_neg h2] at e
  by_cases h3 : a = 0x4014
  · rw [if_pos h3] at e; exact .inr (.inr (.inl ⟨h3, e⟩))
  rw [if_neg h3] at e
  by_cases h4 : a = 0x4016
  · rw [if_pos h4] at e; exact .inr (.inr (.inr (.inl ⟨h4, e⟩)))
  rw [if_neg h4] at e
  by_cases h5 : a < 0x4018
  · rw [if_pos h5] at e; exact .inr (.inr (.inr (.inr (.inl ⟨by bv_omega, h5, h3, h4, e⟩))))
  rw [if_neg h5] at e
  by_cases h6 : a < 0x6000
  · rw [if_pos h6] at e; exact .inr (.inr (.inr (.inr (.inr (.inl ⟨by bv_omega, h6, e⟩)))))
  rw [if_neg h6] at e
  by_cases h7 : a < 0x8000
  · rw [if_pos h7] at e
    by_cases h8 : s.cfg.cart.hasPrgRam = true
    · rw [if_pos h8] at e
      exact .inr (.inr (.inr (.inr (.inr (.inr (.inl ⟨by bv_omega, h7, h8, e⟩))))))
    · rw [if_neg h8] at e
      exact .inr (.inr (.inr (.inr (.inr (.inr (.inr (.inl ⟨by bv_omega, h7, by simpa using h8, e⟩)))))))
  · rw [if_neg h7] at e
    exact .inr (.inr (.inr (.inr (.inr (.inr (.inr (.inr ⟨by bv_omega, e⟩)))))))

theorem dmaTicks_ne {a : Word} (h : a ≠ 0x4014) (s : State) : dmaTicks a s = 0 := if_neg h

/-- What a write does to the CPU: nothing, but for the stall an OAM DMA asks for. -/
@[simp] theorem cpuWrite_cpu (a : Word) (v : Byte) (s : State) :
    (cpuWrite a v s).cpu = { s.cpu with dmaStall := s.cpu.dmaStall + dmaTicks a s } := by
  rcases cpuWrite_cases a v s with ⟨h, e⟩ | ⟨h, h', e⟩ | ⟨h, e⟩ | ⟨h, e⟩ | ⟨_, _, h, _, e⟩ | ⟨h, h', e⟩ |
    ⟨h, _, _, e⟩ | ⟨h, _, _, e⟩ | ⟨h, e⟩
  case inr.inr.inl => rw [e, h, oamDma_cpu]; simp [dmaTicks, Nat.add_assoc]
  case inr.inr.inr.inl => rw [e, dmaTicks_ne (by rw [h]; decide), writeStrobe_eq]; rfl
  all_goals rw [e, dmaTicks_ne (by first | assumption | (intro hh; subst hh; revert h; decide) | (intro hh; subst hh; revert h'; decide))]
  all_goals first | rw [ppuWriteReg_cpu, Nat.add_zero] | rfl

@[simp] theorem cpuWrite_buttons0 (a : Word) (v : Byte) (s : State) : (cpuWrite a v s).buttons0 = s.buttons0 := by
  rcases cpuWrite_cases a v s with ⟨_, e⟩ | ⟨_, _, e⟩ | ⟨_, e⟩ | ⟨_, e⟩ | ⟨_, _, _, _, e⟩ | ⟨_, _, e⟩ |
    ⟨_, _, _, e⟩ | ⟨_, _, _, e⟩ | ⟨_, e⟩ <;> rw [e] <;>
    first | rw [oamDma_buttons0] | rw [ppuWriteReg_buttons0] | rw [writeStrobe_eq]

@[simp] theorem cpuWrite_buttons1 (a : Word) (v : Byte) (s : State) : (cpuWrite a v s).buttons1 = s.buttons1 := by
  rcases cpuWrite_cases a v s with ⟨_, e⟩ | ⟨_, _, e⟩ | ⟨_, e⟩ | ⟨_, e⟩ | ⟨_, _, _, _, e⟩ | ⟨_, _, e⟩ |
    ⟨_, _, _, e⟩ | ⟨_, _, _, e⟩ | ⟨_, e⟩ <;> rw [e] <;>
    first | rw [oamDma_buttons1] | rw [ppuWriteReg_buttons1] | rw [writeStrobe_eq]

@[simp] theorem cpuWrite_cfg (a : Word) (v : Byte) (s : State) : (cpuWrite a v s).cfg = s.cfg := by
  rcases cpuWrite_cases a v s with ⟨_, e⟩ | ⟨_, _, e⟩ | ⟨_, e⟩ | ⟨_, e⟩ | ⟨_, _, _, _, e⟩ | ⟨_, _, e⟩ |
    ⟨_, _, _, e⟩ | ⟨_, _, _, e⟩ | ⟨_, e⟩ <;> rw [e] <;>
    first | rw [oamDma_cfg] | rw [ppuWriteReg_cfg] | rw [writeStrobe_eq]

@[simp] theorem cpuWrite_snap (a : Word) (v : Byte) (s : State) : (cpuWrite a v s).snap = s.snap := by
  rcases cpuWrite_cases a v s with ⟨_, e⟩ | ⟨_, _, e⟩ | ⟨_, e⟩ | ⟨_, e⟩ | ⟨_, _, _, _, e⟩ | ⟨_, _, e⟩ |
    ⟨_, _, _, e⟩ | ⟨_, _, _, e⟩ | ⟨_, e⟩ <;> rw [e] <;>
    first | rw [oamDma_snap] | rw [ppuWriteReg_snap] | rw [writeStrobe_eq]

@[simp] theorem cpuWrite_undSeen (a : Word) (v : Byte) (s : State) : (cpuWrite a v s).undSeen = s.undSeen := by
  rcases cpuWrite_cases a v s with ⟨_, e⟩ | ⟨_, _, e⟩ | ⟨_, e⟩ | ⟨_, e⟩ | ⟨_, _, _, _, e⟩ | ⟨_, _, e⟩ |
    ⟨_, _, _, e⟩ | ⟨_, _, _, e⟩ | ⟨_, e⟩ <;> rw [e] <;>
    first | rw [oamDma_undSeen] | rw [ppuWriteReg_undSeen] | rw [writeStrobe_eq]

@[simp] theorem cpuWrite_frameCycle (a : Word) (v : Byte) (s : State) : (cpuWrite a v s).frameCycle = s.frameCycle := by
  rcases cpuWrite_cases a v s with ⟨_, e⟩ | ⟨_, _, e⟩ | ⟨_, e⟩ | ⟨_, e⟩ | ⟨_, _, _, _, e⟩ | ⟨_, _, e⟩ |
    ⟨_, _, _, e⟩ | ⟨_, _, _, e⟩ | ⟨_, e⟩ <;> rw [e] <;>
    first | rw [oamDma_frameCycle] | rw [ppuWriteReg_frameCycle] | rw [writeStrobe_eq]

@[simp] theorem cpuWrite_framesReady (a : Word) (v : Byte) (s : State) : (cpuWrite a v s).framesReady = s.framesReady := by
  rcases cpuWrite_cases a v s with ⟨_, e⟩ | ⟨_, _, e⟩ | ⟨_, e⟩ | ⟨_, e⟩ | ⟨_, _, _, _, e⟩ | ⟨_, _, e⟩ |
    ⟨_, _, _, e⟩ | ⟨_, _, _, e⟩ | ⟨_, e⟩ <;> rw [e] <;>
    first | rw [oamDma_framesReady] | rw [ppuWriteReg_framesReady] | rw [writeStrobe_eq]

/-- Two addresses of work RAM that are not the same cell have different indices. -/
theorem ramIndex_ne {a b : Word} (ha : a < 0x2000) (hb : b < 0x2000) (h : sameCell a b = false) :
    (b &&& 0x07FF).toNat ≠ (a &&& 0x07FF).toNat := by
  simp only [sameCell, if_pos ha, hb, decide_true, Bool.true_and, beq_eq_false_iff_ne, ne_eq] at h
  exact fun e => h (BitVec.eq_of_toNat_eq e.symm)

theorem byteAt_ram {a : Word} (h : a < 0x2000) (s : State) : byteAt s a = s.ram.read (a &&& 0x07FF).toNat := by
  unfold byteAt cpuRead; rw [if_pos h]

theorem byteAt_prgRam {a : Word} (h : 0x6000 ≤ a) (h' : a < 0x8000) (s : State) :
    byteAt s a = if s.cfg.cart.hasPrgRam then s.prgRam.read (prgRamOffset a) else 0 := by
  unfold byteAt cpuRead
  rw [if_neg (by bv_omega), if_neg (by bv_omega), if_neg (by bv_omega), if_neg (by bv_omega), if_neg (by bv_omega),
    if_neg (by bv_omega), if_pos h']

theorem byteAt_rom {a : Word} (h : 0x8000 ≤ a) (s : State) : byteAt s a = readPrg s.cfg.cart s.mapper a := by
  unfold byteAt cpuRead
  rw [if_neg (by bv_omega), if_neg (by bv_omega), if_neg (by bv_omega), if_neg (by bv_omega), if_neg (by bv_omega),
    if_neg (by bv_omega), if_neg (by bv_omega)]

/-- Memory is work RAM, the PRG RAM window and the PRG ROM window. -/
theorem isMemory_cases {a : Word} (h : isMemory a = true) :
    a < 0x2000 ∨ (0x6000 ≤ a ∧ a < 0x8000) ∨ 0x8000 ≤ a := by
  simp only [isMemory, Bool.or_eq_true, decide_eq_true_eq] at h
  rcases h with h | h
  · exact .inl h
  · by_cases h' : a < 0x8000
    · exact .inr (.inl ⟨h, h'⟩)
    · exact .inr (.inr (by bv_omega))

theorem sameCell_ram_off {ea a : Word} (h : ea < 0x2000) (h' : ¬ a < 0x2000) : sameCell ea a = false := by
  rw [sameCell, if_pos h, decide_eq_false h', Bool.false_and]

/-- A write to work RAM changes the cell it names and no other byte of memory. -/
theorem byteAt_writeRam {ea a : Word} (hea : ea < 0x2000) (v : Byte) (s : State) (hr : s.ram.wf = true)
    (ha : isMemory a = true) :
    byteAt { s with ram := s.ram.write (ea &&& 0x07FF).toNat v } a = if sameCell ea a then v else byteAt s a := by
  rcases isMemory_cases ha with h | ⟨h, h'⟩ | h
  · rw [byteAt_ram h, byteAt_ram h]
    by_cases hs : sameCell ea a = true
    · have : ea &&& 0x07FF = a &&& 0x07FF := by
        rw [sameCell, if_pos hea, Bool.and_eq_true] at hs
        exact eq_of_beq hs.2
      rw [if_pos hs, this]
      exact Memory.read_write_same hr _ _
    · rw [if_neg hs]
      exact Memory.read_write_ne hr v (ramIndex_ne hea h (by simpa using hs))
  · have hs : sameCell ea a = false := sameCell_ram_off hea (by bv_omega)
    rw [hs, byteAt_prgRam h h', byteAt_prgRam h h']; rfl
  · have hs : sameCell ea a = false := sameCell_ram_off hea (by bv_omega)
    rw [hs, byteAt_rom h, byteAt_rom h]; rfl

theorem prgRamOffset_eq (a : Word) : prgRamOffset a = a.toNat % 8192 := by
  rw [prgRamOffset, BitVec.toNat_and]
  exact Nat.and_two_pow_sub_one_eq_mod a.toNat 13

theorem prgRamOffset_ne {a b : Word} (ha : 0x6000 ≤ a) (ha' : a < 0x8000) (hb : 0x6000 ≤ b) (hb' : b < 0x8000)
    (h : ¬ a = b) : prgRamOffset b ≠ prgRamOffset a := by
  rw [prgRamOffset_eq, prgRamOffset_eq]
  bv_omega

/-- A write to PRG RAM changes the cell it names and no other byte of memory. -/
theorem byteAt_writePrgRam {ea a : Word} (h1 : 0x6000 ≤ ea) (h2 : ea < 0x8000) (v : Byte) (s : State)
    (hp : s.prgRam.wf = true) (hc : s.cfg.cart.hasPrgRam = true) (ha : isMemory a = true) :
    byteAt { s with prgRam := s.prgRam.write (prgRamOffset ea) v } a = if sameCell ea a then v else byteAt s a := by
  have hs : sameCell ea a = (ea == a) := by rw [sameCell, if_neg (by bv_omega)]
  rw [hs]
  rcases isMemory_cases ha with h | ⟨h, h'⟩ | h
  · rw [byteAt_ram h, byteAt_ram h, if_neg (by simp; bv_omega)]
  · rw [byteAt_prgRam h h', byteAt_prgRam h h']
    rw [if_pos hc, if_pos hc]
    by_cases he : ea = a
    · subst he
      rw [beq_self_eq_true, if_pos rfl]
      exact Memory.read_write_same hp _ _
    · rw [if_neg (by simpa using he)]
      exact Memory.read_write_ne hp v (prgRamOffset_ne h1 h2 h h' he)
  · rw [byteAt_rom h, byteAt_rom h, if_neg (by simp; bv_omega)]

theorem sameCell_self (a : Word) : sameCell a a = true := by
  unfold sameCell; split <;> simp_all

/-- A write that leaves the two RAMs, the cartridge and the bank registers leaves all memory. -/
theorem off_memory {ea : Word} {s t : State} (h1 : t.ram = s.ram) (h2 : t.prgRam = s.prgRam)
    (h3 : t.mapper = s.mapper) (h4 : t.cfg = s.cfg) :
    ∀ a, isMemory a = true → sameCell ea a = false → (ea < 0x8000 ∨ a < 0x8000) → byteAt t a = byteAt s a :=
  fun a ha _ _ => byteAt_congr h1 h2 h3 (by rw [h4]) a ha

theorem isMemory_ram {a : Word} (h : a < 0x2000) : isMemory a = true := by
  rw [isMemory, decide_eq_true h, Bool.true_or]

theorem isMemory_high {a : Word} (h : 0x6000 ≤ a) : isMemory a = true := by
  rw [isMemory, decide_eq_true h, Bool.or_true]

theorem isPpuRegister_of {a : Word} (h : 0x2000 ≤ a) (h' : a < 0x4000) : isPpuRegister a = true := by
  rw [isPpuRegister, decide_eq_true h, decide_eq_true h', Bool.and_true]

theorem isApuRegister_of {a : Word} (h : 0x4000 ≤ a) (h' : a < 0x4018) (h1 : a ≠ 0x4014) (h2 : a ≠ 0x4016) :
    isApuRegister a = true := by
  by_cases h3 : a < 0x4014
  · rw [isApuRegister, decide_eq_true h, decide_eq_true h3]; rfl
  · have h4 : a = 0x4015 ∨ a = 0x4017 := by bv_omega
    rcases h4 with rfl | rfl <;> decide

theorem word_lt_le {a b c : Word} (h : a < b) (h' : c ≤ a) (hbc : b ≤ c) : False := by bv_omega

/-- Everything one write of the CPU bus can do outside the CPU. -/
theorem cpuWrite_frame (ea : Word) (v : Byte) (s : State) (hr : s.ram.wf = true) (hp : s.prgRam.wf = true) :
    WriteFrame ea v s (cpuWrite ea v s) := by
  rcases cpuWrite_cases ea v s with ⟨h, e⟩ | ⟨h, h', e⟩ | ⟨h, e⟩ | ⟨h, e⟩ | ⟨h, h', hd, hs, e⟩ | ⟨h, h', e⟩ |
    ⟨h, h', hc, e⟩ | ⟨h, h', hc, e⟩ | ⟨h, e⟩ <;> rw [e]
  · have hm := fun a => byteAt_writeRam (a := a) h v s hr
    exact
      { stored := fun _ => by rw [hm _ (isMemory_ram h), if_pos (sameCell_self ea)]
        storedPrgRam := fun h1 => absurd h (by bv_omega)
        memory := fun a ha hn _ => by rw [hm a ha, hn]; rfl
        banked := fun h1 => absurd h (by bv_omega)
        ram := fun h1 => absurd h (by bv_omega)
        prgRam := fun _ => rfl, mapper := fun _ => rfl, picture := fun _ => ⟨rfl, rfl, rfl⟩, ppu := fun _ _ => rfl
        pads := fun _ _ => rfl, apu := fun _ => rfl, buttons0 := rfl, buttons1 := rfl, cfg := rfl, snap := rfl
        undSeen := rfl, framesReady := rfl, frameCycle := rfl }
  · exact
      { stored := fun h1 => absurd h (by bv_omega)
        storedPrgRam := fun h1 => absurd h' (by bv_omega)
        memory := off_memory (by simp) (by simp) (by simp) (by simp)
        banked := fun h1 => absurd h' (by bv_omega)
        ram := fun _ => by simp, prgRam := fun _ => by simp, mapper := fun _ => by simp
        picture := fun h1 => by rw [isPpuRegister_of h h'] at h1; cases h1
        ppu := fun h1 => by rw [isPpuRegister_of h h'] at h1; cases h1
        pads := fun _ _ => by simp, apu := fun _ => by simp, buttons0 := by simp, buttons1 := by simp
        cfg := by simp, snap := by simp, undSeen := by simp, framesReady := by simp, frameCycle := by simp }
  · subst h
    exact
      { stored := fun h1 => absurd h1 (by decide)
        storedPrgRam := fun h1 => absurd h1 (by decide)
        memory := off_memory (by simp) (by simp) (by simp) (by simp)
        banked := fun h1 => absurd h1 (by decide)
        ram := fun _ => by simp, prgRam := fun _ => by simp, mapper := fun _ => by simp
        picture := fun _ => ⟨by simp, by simp, by simp⟩
        ppu := fun _ h1 => absurd rfl h1
        pads := fun h1 => absurd rfl h1, apu := fun _ => by simp, buttons0 := by simp, buttons1 := by simp
        cfg := by simp, snap := by simp, undSeen := by simp, framesReady := by simp, frameCycle := by simp }
  · subst h
    rw [writeStrobe_eq]
    exact
      { stored := fun h1 => absurd h1 (by decide)
        storedPrgRam := fun h1 => absurd h1 (by decide)
        memory := off_memory rfl rfl rfl rfl
        banked := fun h1 => absurd h1 (by decide)
        ram := fun _ => rfl, prgRam := fun _ => rfl, mapper := fun _ => rfl
        picture := fun _ => ⟨rfl, rfl, rfl⟩
        ppu := fun _ _ => rfl
        pads := fun _ h1 => absurd rfl h1, apu := fun _ => rfl, buttons0 := rfl, buttons1 := rfl
        cfg := rfl, snap := rfl, undSeen := rfl, framesReady := rfl, frameCycle := rfl }
  · exact
      { stored := fun h1 => (word_lt_le h1 h (by decide)).elim
        storedPrgRam := fun h1 => (word_lt_le h' h1 (by decide)).elim
        memory := off_memory rfl rfl rfl rfl
        banked := fun h1 => (word_lt_le h' h1 (by decide)).elim
        ram := fun _ => rfl, prgRam := fun _ => rfl, mapper := fun _ => rfl
        picture := fun _ => ⟨rfl, rfl, rfl⟩
        ppu := fun _ _ => rfl
        pads := fun _ _ => rfl
        apu := fun h1 => by rw [isApuRegister_of h h' hd hs] at h1; cases h1
        buttons0 := rfl, buttons1 := rfl
        cfg := rfl, snap := rfl, undSeen := rfl, framesReady := rfl, frameCycle := rfl }
  · exact
      { stored := fun h1 => absurd h (by bv_omega)
        storedPrgRam := fun h1 => absurd h' (by bv_omega)
        memory := fun _ _ _ _ => rfl
        banked := fun h1 => absurd h' (by bv_omega)
        ram := fun _ => rfl, prgRam := fun _ => rfl, mapper := fun _ => rfl
        picture := fun _ => ⟨rfl, rfl, rfl⟩, ppu := fun _ _ => rfl, pads := fun _ _ => rfl, apu := fun _ => rfl
        buttons0 := rfl, buttons1 := rfl, cfg := rfl, snap := rfl, undSeen := rfl, framesReady := rfl, frameCycle := rfl }
  · have hm := fun a => byteAt_writePrgRam (a := a) h h' v s hp hc
    exact
      { stored := fun h1 => absurd h (by bv_omega)
        storedPrgRam := fun _ _ => by rw [hm _ (isMemory_high h), if_pos (sameCell_self ea), hc]; rfl
        memory := fun a ha hn _ => by rw [hm a ha, hn]; rfl
        banked := fun h1 => absurd h' (by bv_omega)
        ram := fun _ => rfl
        prgRam := fun h1 => by rcases h1 with h1 | h1 <;> exfalso <;> bv_omega
        mapper := fun _ => rfl
        picture := fun _ => ⟨rfl, rfl, rfl⟩, ppu := fun _ _ => rfl, pads := fun _ _ => rfl, apu := fun _ => rfl
        buttons0 := rfl, buttons1 := rfl, cfg := rfl, snap := rfl, undSeen := rfl, framesReady := rfl, frameCycle := rfl }
  · exact
      { stored := fun h1 => absurd h (by bv_omega)
        storedPrgRam := fun _ _ => by rw [byteAt_prgRam h h', hc]; rfl
        memory := fun _ _ _ _ => rfl
        banked := fun h1 => absurd h' (by bv_omega)
        ram := fun _ => rfl, prgRam := fun _ => rfl, mapper := fun _ => rfl
        picture := fun _ => ⟨rfl, rfl, rfl⟩, ppu := fun _ _ => rfl, pads := fun _ _ => rfl, apu := fun _ => rfl
        buttons0 := rfl, buttons1 := rfl, cfg := rfl, snap := rfl, undSeen := rfl, framesReady := rfl, frameCycle := rfl }
  · exact
      { stored := fun h1 => absurd h (by bv_omega)
        storedPrgRam := fun _ h1 => absurd h (by bv_omega)
        memory := fun a ha hn hw => by
          have h4 : a < 0x8000 := hw.resolve_left (by bv_omega)
          rcases isMemory_cases ha with h5 | ⟨h5, h6⟩ | h5
          · rw [byteAt_ram h5, byteAt_ram h5]
          · rw [byteAt_prgRam h5 h6, byteAt_prgRam h5 h6]
          · exact absurd h4 (by bv_omega)
        banked := fun _ => rfl
        ram := fun _ => rfl, prgRam := fun _ => rfl
        mapper := fun h1 => absurd h (by bv_omega)
        picture := fun _ => ⟨rfl, rfl, rfl⟩, ppu := fun _ _ => rfl, pads := fun _ _ => rfl, apu := fun _ => rfl
        buttons0 := rfl, buttons1 := rfl, cfg := rfl, snap := rfl, undSeen := rfl, framesReady := rfl, frameCycle := rfl }

/-! ## Reads as operands -/

theorem readFrame_refl (addr : Option Word) (s : State) : ReadFrame addr s s :=
  { memory := MemoryKept.refl s, vram := rfl, palette := rfl, apu := rfl, prgRam := rfl, chrRam := rfl, mapper := rfl
    buttons0 := rfl, buttons1 := rfl, cfg := rfl, snap := rfl, undSeen := rfl, framesReady := rfl, frameCycle := rfl, ram := rfl
    oam := rfl, fb := rfl, quiet := fun _ => ⟨rfl, rfl⟩ }

/-- Everything one read of the CPU bus can do outside the CPU. -/
theorem cpuRead_frame (a : Word) (s : State) : ReadFrame (some a) s (cpuRead a s).2 :=
  { memory := cpuRead_memoryKept a s, vram := by simp, palette := by simp, apu := by simp, prgRam := by simp
    chrRam := by simp, mapper := by simp, buttons0 := by simp, buttons1 := by simp, cfg := by simp, snap := by simp
    undSeen := by simp, framesReady := by simp, frameCycle := by simp, ram := by simp, oam := by simp, fb := by simp
    quiet := fun h => by rw [cpuRead_quiet (h a rfl)]; exact ⟨rfl, rfl⟩ }

end Sys2Proof.Machine
end

