-- ==== Sys2Proof/Laws/Flags.lean ====
section
/-! SUPPORT. Laws/Flags.lean: the flag computations of Machine/Flags.lean as arithmetic on numbers. -/

namespace Sys2Proof.Machine

theorem bit7_eq (r : Byte) : r.getLsbD 7 = decide (128 ≤ r.toNat) := by
  rw [← BitVec.msb_eq_getLsbD_last r, BitVec.msb_eq_decide]

theorem bit6_eq (r : Byte) : r.getLsbD 6 = decide (64 ≤ r.toNat % 128) := by
  revert r; decide +kernel

theorem isZero_eq (r : Byte) : (r == 0) = decide (r.toNat = 0) := by
  rw [Bool.eq_iff_iff, beq_iff_eq, decide_eq_true_eq]
  exact ⟨fun h => by rw [h]; rfl, fun h => BitVec.eq_of_toNat_eq (by rw [h]; rfl)⟩

/-- `SetZN` in numbers. -/
theorem setZN_eq (r : Byte) (f : Flags) :
    setZN r f = { f with z := decide (r.toNat = 0), n := decide (128 ≤ r.toNat) } := by
  rw [setZN, isZero_eq, bit7_eq]

/-- The byte pushed for the flags, in numbers. -/
theorem toByte_toNat (b : Bool) (f : Flags) : (f.toByte b).toNat =
    128 * f.n.toNat + 64 * f.v.toNat + 32 + 16 * b.toNat + 8 * f.d.toNat + 4 * f.i.toNat + 2 * f.z.toNat + f.c.toNat := by
  rcases f with ⟨c, z, i, d, v, n⟩
  revert b c z i d v n
  decide

/-- Pulling a pushed status byte gives the flags back: bits 5 and 4 are ignored. -/
@[simp] theorem ofByte_toByte (b : Bool) (f : Flags) : Flags.ofByte (f.toByte b) = f := by
  rcases f with ⟨c, z, i, d, v, n⟩
  revert b c z i d v n
  decide

/-- `SetP` in numbers. -/
theorem ofByte_eq (p : Byte) : Flags.ofByte p =
    { c := p.toNat % 2 == 1, z := p.toNat / 2 % 2 == 1, i := p.toNat / 4 % 2 == 1, d := p.toNat / 8 % 2 == 1,
      v := p.toNat / 64 % 2 == 1, n := p.toNat / 128 == 1 } := by
  revert p; decide +kernel

/-! ## The overflow flag -/

/-- ADC's overflow bit is set exactly when the signed sum leaves -128 to 127. -/
theorem adc_overflow (a m : Byte) (c : Bool) :
    let r : Byte := BitVec.ofNat 8 (a.toNat + m.toNat + c.toNat)
    (((a ^^^ r) &&& (m ^^^ r) &&& 0x80) != 0) =
      decide (a.toInt + m.toInt + c.toNat < -128 ∨ 127 < a.toInt + m.toInt + c.toNat) := by
  have key : ∀ x y z : Bool, (((x ^^ z) && (y ^^ z)) = true ↔ (x = y ∧ z ≠ x)) := by decide
  intro r
  have h80 : ∀ b : Byte, ((b &&& 0x80) != 0) = b.getLsbD 7 := by decide +kernel
  rw [h80, Bool.eq_iff_iff, decide_eq_true_eq, BitVec.getLsbD_and, BitVec.getLsbD_xor, BitVec.getLsbD_xor,
    key, bit7_eq, bit7_eq, bit7_eq]
  have ha := a.isLt
  have hm := m.isLt
  have hr : r.toNat = (a.toNat + m.toNat + c.toNat) % 256 := BitVec.toNat_ofNat ..
  have hc : c.toNat ≤ 1 := Bool.toNat_le c
  rw [BitVec.toInt_eq_toNat_cond, BitVec.toInt_eq_toNat_cond, hr]
  simp only [ne_eq, decide_eq_decide]
  split <;> split <;> omega

/-! ## The ones' complement in SBC -/

theorem complement_toNat (m : Byte) : (m ^^^ 0xFF).toNat = 255 - m.toNat := by
  revert m; decide +kernel

theorem complement_toInt (m : Byte) : (m ^^^ 0xFF).toInt = -1 - m.toInt := by
  revert m; decide +kernel

/-- The sum SBC forms is 256 more than the difference with borrow. -/
theorem sbc_sum (a m : Byte) (c : Bool) :
    ((a.toNat + (m ^^^ 0xFF).toNat + c.toNat : Nat) : Int) = (a.toNat : Int) - m.toNat - (1 - c.toNat) + 256 := by
  have := m.isLt
  rw [complement_toNat]
  omega

/-- SBC's result is the difference with borrow modulo 256. -/
theorem sbc_result (a m : Byte) (c : Bool) :
    (BitVec.ofNat 8 (a.toNat + (m ^^^ 0xFF).toNat + c.toNat) : Byte) =
      BitVec.ofInt 8 ((a.toNat : Int) - m.toNat - (1 - c.toNat)) := by
  apply BitVec.eq_of_toInt_eq
  have h : ∀ n : Nat, (BitVec.ofNat 8 n : Byte).toInt = (n : Int).bmod (2 ^ 8) := fun n => BitVec.toInt_ofNat' ..
  rw [BitVec.toInt_ofInt, h, sbc_sum, show (256 : Int) = ((2 ^ 8 : Nat) : Int) by rfl, Int.add_bmod_right]

/-- SBC's carry: no borrow. -/
theorem sbc_carry (a m : Byte) (c : Bool) :
    decide (0xFF < a.toNat + (m ^^^ 0xFF).toNat + c.toNat) =
      decide (0 ≤ (a.toNat : Int) - m.toNat - (1 - c.toNat)) := by
  have := sbc_sum a m c
  rw [decide_eq_decide]
  omega

end Sys2Proof.Machine
end

