-- ==== Sys2Proof/Laws/Operands.lean ====
section
/-! SUPPORT. Laws/Operands.lean: addresses in numbers, what fetching an operand can do, and what each shared shape of
instruction (load, store, operation on the accumulator, read-modify-write, push, pull) does. -/

namespace Sys2Proof.Machine

/-! ## Addresses -/

theorem zext16_toNat (b : Byte) : (zext16 b).toNat = b.toNat := by
  rw [zext16, BitVec.toNat_setWidth]
  exact Nat.mod_eq_of_lt (by have := b.isLt; omega)

theorem word_toNat (hi lo : Byte) : (word hi lo).toNat = lo.toNat + 256 * hi.toNat := by
  rw [word, BitVec.toNat_append, ← Nat.shiftLeft_add_eq_or_of_lt lo.isLt, Nat.shiftLeft_eq]
  omega

theorem zext16_page0 (b : Byte) : zext16 b < 0x0100 := by
  rw [BitVec.lt_def, zext16_toNat]
  exact b.isLt

theorem lowBits_ram {a : Word} (h : a.toNat < 2048) : (a &&& 0x07FF).toNat = a.toNat := by
  rw [BitVec.toNat_and]
  exact (Nat.and_two_pow_sub_one_eq_mod a.toNat 11).trans (Nat.mod_eq_of_lt h)

theorem ramIndex (a : Word) : (a &&& 0x07FF).toNat = a.toNat % 2048 := by
  rw [BitVec.toNat_and]
  exact Nat.and_two_pow_sub_one_eq_mod a.toNat 11

/-- A page-0 byte is a byte of work RAM. -/
theorem byteAt_page0 (b : Byte) (s : State) : byteAt s (zext16 b) = s.ram.read b.toNat := by
  have h := b.isLt
  rw [byteAt_ram (by rw [BitVec.lt_def, zext16_toNat]; exact Nat.lt_trans h (by decide)), ramIndex, zext16_toNat,
    Nat.mod_eq_of_lt (by omega)]

/-- The page-cross test in numbers: the quotients by 256 differ. -/
theorem pageCross_eq (a b : Word) : (pageCross a b).toNat = if a.toNat / 256 = b.toNat / 256 then 0 else 1 := by
  have h : ∀ w : Word, (field w 8 8).toNat = w.toNat / 256 := by
    intro w
    rw [field, BitVec.extractLsb'_toNat, Nat.shiftRight_eq_div_pow]
    exact Nat.mod_eq_of_lt (by have := w.isLt; omega)
  unfold pageCross
  by_cases hh : field a 8 8 = field b 8 8
  · rw [if_pos (by rw [← h a, ← h b, hh]), hh, bne_self_eq_false]; rfl
  · rw [if_neg (fun e => hh (BitVec.eq_of_toNat_eq (by rw [h a, h b, e]))), bne_iff_ne.2 hh]; rfl

/-! ## Operands -/

@[simp] theorem operand_imm (b : Byte) (s : State) : operand (.imm b) s = (b, s) := rfl
@[simp] theorem operand_mem (m : Addr) (s : State) : operand (.mem m) s = cpuRead (effAddr m s) s := rfl

@[simp] theorem operand_cpu (src : Source) (s : State) : (operand src s).2.cpu = s.cpu := by
  cases src <;> simp

/-- A state that differs from another in the CPU alone has the same frame. -/
theorem ReadFrame.withCpu {addr : Option Word} {s t : State} (h : ReadFrame addr s t) (c : Cpu) :
    ReadFrame addr s { t with cpu := c } :=
  { h with
    memory := MemoryKept.trans h.memory (byteAt_congr rfl rfl rfl rfl)
    quiet := h.quiet }

theorem WriteFrame.withCpu {ea : Word} {v : Byte} {s t : State} (h : WriteFrame ea v s t) (c : Cpu) :
    WriteFrame ea v s { t with cpu := c } :=
  have hm : MemoryKept t { t with cpu := c } := byteAt_congr rfl rfl rfl rfl
  { h with
    stored := fun h1 => (hm ea (isMemory_ram h1)).trans (h.stored h1)
    storedPrgRam := fun h1 h2 => (hm ea (isMemory_high h1)).trans (h.storedPrgRam h1 h2)
    memory := fun a ha h1 h2 => (hm a ha).trans (h.memory a ha h1 h2) }

/-- A change of the CPU alone leaves everything else. -/
theorem unitsKept_withCpu (s : State) (c : Cpu) : UnitsKept s { s with cpu := c } :=
  { vram := rfl, palette := rfl, apu := rfl, prgRam := rfl, chrRam := rfl, mapper := rfl, buttons0 := rfl
    buttons1 := rfl, cfg := rfl, snap := rfl, undSeen := rfl, framesReady := rfl, frameCycle := rfl, ppu := rfl, pads := rfl }

theorem memoryKept_withCpu (s : State) (c : Cpu) : MemoryKept s { s with cpu := c } := byteAt_congr rfl rfl rfl rfl

/-! ## The shapes of instructions -/

/-- What an operation on the accumulator does. -/
theorem accOp_eq (f : Byte → Byte → Flags → Byte × Flags) (src : Source) (n : Nat) (s : State) :
    accOp f src n s = { (operand src s).2 with
      cpu := { s.cpu with
        a := (f s.cpu.a (operand src s).1 s.cpu.flags).1, flags := (f s.cpu.a (operand src s).1 s.cpu.flags).2,
        wait := n + pagePenalty src s - 1 + s.cpu.dmaStall, dmaStall := 0 } } := by
  unfold accOp State.setA State.setFlags State.finish
  simp

/-- What an operation that writes flags only does. -/
theorem flagOp_eq (f : Byte → Flags → Flags) (src : Source) (n : Nat) (s : State) :
    flagOp f src n s = { (operand src s).2 with
      cpu := { s.cpu with
        flags := f (operand src s).1 s.cpu.flags, wait := n + pagePenalty src s - 1 + s.cpu.dmaStall,
        dmaStall := 0 } } := by
  unfold flagOp State.setFlags State.finish
  simp

/-- What a load of A does. -/
theorem load_setA_eq (src : Source) (n : Nat) (s : State) :
    load State.setA src n s = { (operand src s).2 with
      cpu := { s.cpu with
        a := (operand src s).1, flags := setZN (operand src s).1 s.cpu.flags,
        wait := n + pagePenalty src s - 1 + s.cpu.dmaStall, dmaStall := 0 } } := by
  unfold load State.setA State.setZN State.setFlags State.finish
  simp

/-- What a load of X does. -/
theorem load_setX_eq (src : Source) (n : Nat) (s : State) :
    load State.setX src n s = { (operand src s).2 with
      cpu := { s.cpu with
        x := (operand src s).1, flags := setZN (operand src s).1 s.cpu.flags,
        wait := n + pagePenalty src s - 1 + s.cpu.dmaStall, dmaStall := 0 } } := by
  unfold load State.setX State.setZN State.setFlags State.finish
  simp

/-- What a load of Y does. -/
theorem load_setY_eq (src : Source) (n : Nat) (s : State) :
    load State.setY src n s = { (operand src s).2 with
      cpu := { s.cpu with
        y := (operand src s).1, flags := setZN (operand src s).1 s.cpu.flags,
        wait := n + pagePenalty src s - 1 + s.cpu.dmaStall, dmaStall := 0 } } := by
  unfold load State.setY State.setZN State.setFlags State.finish
  simp

/-- What a store does. -/
theorem store_eq (v : Byte) (m : Addr) (n : Nat) (s : State) :
    store v m n s = { cpuWrite (effAddr m s) v s with
      cpu := { s.cpu with wait := n - 1 + (s.cpu.dmaStall + dmaTicks (effAddr m s) s), dmaStall := 0 } } := by
  unfold store storeTo State.finish
  simp

/-- What a read-modify-write of memory does. -/
theorem rmwMem_eq (f : Byte → Flags → Byte × Flags) (m : Addr) (n : Nat) (s : State) :
    rmwMem f m n s =
      { cpuWrite (effAddr m s) (f (byteAt s (effAddr m s)) s.cpu.flags).1 (cpuRead (effAddr m s) s).2 with
        cpu := { s.cpu with
          flags := (f (byteAt s (effAddr m s)) s.cpu.flags).2,
          wait := n - 1 + (s.cpu.dmaStall + dmaTicks (effAddr m s) s), dmaStall := 0 } } := by
  have h : ∀ a, dmaTicks a (cpuRead (effAddr m s) s).2 = dmaTicks a s := fun a => by simp [dmaTicks]
  unfold rmwMem State.setFlags State.finish byteAt
  simp [h]

/-! ## The stack -/

theorem stackAddr_toNat (sp : Byte) : (stackAddr sp).toNat = 256 + sp.toNat := by
  have := sp.isLt
  rw [stackAddr, BitVec.toNat_add, zext16_toNat]
  exact Nat.mod_eq_of_lt (by simp; omega)

theorem stackAddr_ram (sp : Byte) : stackAddr sp < 0x2000 := by
  have := sp.isLt
  rw [BitVec.lt_def, stackAddr_toNat]
  exact Nat.lt_trans (m := 512) (by omega) (by decide)

theorem sameCell_stack {p q : Byte} (h : p ≠ q) : sameCell (stackAddr p) (stackAddr q) = false := by
  have hp := p.isLt
  have hq := q.isLt
  rw [sameCell, if_pos (stackAddr_ram p), decide_eq_true (stackAddr_ram q), Bool.true_and, beq_eq_false_iff_ne]
  intro e
  have e' := congrArg BitVec.toNat e
  rw [ramIndex, ramIndex, stackAddr_toNat, stackAddr_toNat] at e'
  exact h (BitVec.eq_of_toNat_eq (by omega))

/-- A push writes one cell of work RAM and moves SP. -/
theorem push_eq (v : Byte) (s : State) : push v s =
    { s with ram := s.ram.write (stackAddr s.cpu.sp &&& 0x07FF).toNat v, cpu := { s.cpu with sp := s.cpu.sp - 1 } } := by
  unfold push cpuWrite
  rw [if_pos (stackAddr_ram _)]
  rfl

/-- A pull reads the slot above SP and moves SP. -/
theorem pull_eq (s : State) : pull s =
    (byteAt s (stackAddr (s.cpu.sp + 1)), { s with cpu := { s.cpu with sp := s.cpu.sp + 1 } }) := by
  unfold pull byteAt cpuRead
  rw [if_pos (stackAddr_ram _), if_pos (stackAddr_ram _)]
  rfl

theorem wf_push (v : Byte) (s : State) (h : s.ram.wf = true) : (push v s).ram.wf = true := by
  rw [push_eq]
  exact Memory.wf_write _ _ h

/-- Memory after a push. -/
theorem byteAt_push (v : Byte) (s : State) (h : s.ram.wf = true) {a : Word} (ha : isMemory a = true) :
    byteAt (push v s) a = if sameCell (stackAddr s.cpu.sp) a then v else byteAt s a := by
  rw [push_eq]
  exact (byteAt_writeRam (stackAddr_ram s.cpu.sp) v { s with cpu := { s.cpu with sp := s.cpu.sp - 1 } } h ha).trans
    (by rw [memoryKept_withCpu s _ a ha])

end Sys2Proof.Machine
end

