-- ==== Sys2Proof/Laws/BusCpu.lean ====
section
/-! SUPPORT. Laws/BusCpu.lean: the bus does not look at the CPU: what a read or a write does with another CPU record. -/

namespace Sys2Proof.Machine

/-- The same state with another CPU record. -/
def State.setCpu (c : Cpu) (s : State) : State := { s with cpu := c }

/-- A read neither uses nor changes the CPU's registers. -/
theorem cpuRead_setCpu (a : Word) (s : State) (c : Cpu) :
    cpuRead a (s.setCpu c) = ((cpuRead a s).1, (cpuRead a s).2.setCpu c) := by
  unfold cpuRead ppuReadReg readStatus readData readPad0 readPad1 State.setCpu
  split
  · rfl
  split
  · split <;> first | rfl | (dsimp only; split <;> rfl)
  split
  · rfl
  split
  · dsimp only; split <;> rfl
  split
  · dsimp only; split <;> rfl
  split
  · rfl
  split
  · rfl
  · rfl

theorem ppuWrite_setCpu (a : Word) (d : Byte) (s : State) (c : Cpu) :
    ppuWrite a d (s.setCpu c) = (ppuWrite a d s).setCpu c := by
  unfold ppuWrite State.setCpu
  dsimp only
  split
  · rfl
  · split <;> rfl

theorem dmaCopy_setCpu (page : Byte) (c : Cpu) : ∀ (n : Nat) (i : Byte) (s : State),
    dmaCopy page n i (s.setCpu c) = (dmaCopy page n i s).setCpu c
  | 0, _, _ => rfl
  | n + 1, i, s => by
    rw [dmaCopy_succ, dmaCopy_succ, cpuRead_setCpu]
    exact dmaCopy_setCpu page c n (i + 1) (oamStore ((cpuRead (word page i) s).2.ppu.oamaddr + i)
      (cpuRead (word page i) s).1 (cpuRead (word page i) s).2)

/-- A write uses the CPU's tick counter, for the length of an OAM DMA, and nothing else of it. -/
theorem cpuWrite_setCpu (a : Word) (v : Byte) (s : State) (c : Cpu) :
    cpuWrite a v (s.setCpu c) =
      (cpuWrite a v s).setCpu { c with dmaStall := c.dmaStall + dmaTicks a (s.setCpu c) } := by
  have hc := cpuWrite_cpu a v (s.setCpu c)
  have h : cpuWrite a v (s.setCpu c) = (cpuWrite a v s).setCpu (cpuWrite a v (s.setCpu c)).cpu := by
    clear hc
    unfold cpuWrite
    split
    · rfl
    split
    · unfold ppuWriteReg
      split <;> first | rfl | (unfold writeData; dsimp only; rw [show (s.setCpu c).ppu = s.ppu from rfl, ppuWrite_setCpu]; rfl)
    split
    · unfold oamDma; rw [dmaCopy_setCpu]; generalize dmaCopy v 256 0 s = t; rfl
    split
    · unfold writeStrobe State.setCpu
      by_cases hb : (s.pads.strobe && !v.getLsbD 0) = true
      · simp only [hb, if_true]
      · simp only [hb, if_false, Bool.false_eq_true]
    split
    · rfl
    split
    · rfl
    split
    · unfold State.setCpu
      by_cases hb : s.cfg.cart.hasPrgRam = true
      · simp only [hb, if_true]
      · simp only [hb, if_false, Bool.false_eq_true]
    · rfl
  rw [h, hc]; rfl

/-- An effective address depends on X and Y and no other register. -/
theorem effAddr_setCpu (m : Addr) (s : State) (c : Cpu) (hx : c.x = s.cpu.x) (hy : c.y = s.cpu.y) :
    effAddr m (s.setCpu c) = effAddr m s ∧ crosses m (s.setCpu c) = crosses m s := by
  have hz : ∀ z, zpPointer z (s.setCpu c) = zpPointer z s := fun z => by
    simp only [zpPointer, cpuRead_setCpu]
  have hx' : (s.setCpu c).cpu.x = s.cpu.x := hx
  have hy' : (s.setCpu c).cpu.y = s.cpu.y := hy
  cases m <;> simp only [effAddr, crosses, baseAddr, hx', hy', hz, and_self]

theorem operand_setCpu (src : Source) (s : State) (c : Cpu) (hx : c.x = s.cpu.x) (hy : c.y = s.cpu.y) :
    operand src (s.setCpu c) = ((operand src s).1, (operand src s).2.setCpu c) ∧
      pagePenalty src (s.setCpu c) = pagePenalty src s := by
  cases src with
  | imm b => exact ⟨rfl, rfl⟩
  | mem m =>
    obtain ⟨h, h'⟩ := effAddr_setCpu m s c hx hy
    exact ⟨by rw [operand_mem, h, cpuRead_setCpu]; rfl, by rw [pagePenalty, h']; rfl⟩

end Sys2Proof.Machine
end

