-- ==== Sys2Proof/Laws/Decode.lean ====
section
/-! SUPPORT. Laws/Decode.lean: the two bytes of an operand word, and how many operand bytes an opcode asks for. -/

namespace Sys2Proof

theorem wordOf_toNat (lo hi : Byte) : (wordOf lo hi).toNat = lo.toNat + 256 * hi.toNat := by
  rw [wordOf, BitVec.toNat_append, ← Nat.shiftLeft_add_eq_or_of_lt lo.isLt, Nat.shiftLeft_eq]
  omega

theorem loByte_toNat (a : Word) : (loByte a).toNat = a.toNat % 256 := by
  rw [loByte, BitVec.extractLsb'_toNat]; rfl

theorem hiByte_toNat (a : Word) : (hiByte a).toNat = a.toNat / 256 := by
  rw [hiByte, BitVec.extractLsb'_toNat, Nat.shiftRight_eq_div_pow]
  exact Nat.mod_eq_of_lt (by have := a.isLt; omega)

@[simp] theorem loByte_wordOf (lo hi : Byte) : loByte (wordOf lo hi) = lo :=
  BitVec.eq_of_toNat_eq (by rw [loByte_toNat, wordOf_toNat]; have := lo.isLt; omega)

@[simp] theorem hiByte_wordOf (lo hi : Byte) : hiByte (wordOf lo hi) = hi :=
  BitVec.eq_of_toNat_eq (by rw [hiByte_toNat, wordOf_toNat]; have := lo.isLt; omega)

@[simp] theorem wordOf_loByte_hiByte (a : Word) : wordOf (loByte a) (hiByte a) = a :=
  BitVec.eq_of_toNat_eq (by rw [wordOf_toNat, loByte_toNat, hiByte_toNat]; omega)

/-- The opcode byte in row `r` and column `c` of the matrix. -/
theorem byte_of {op : Byte} {r c : Nat} (hr : op.toNat / 16 = r) (hc : op.toNat % 16 = c) :
    op = BitVec.ofNat 8 (16 * r + c) := by
  subst hr hc
  rw [Nat.div_add_mod, BitVec.ofNat_toNat, BitVec.setWidth_eq]

/-- The rows of the matrix. -/
theorem decodeBytes_rows (op b1 b2 : Byte) :
    (op.toNat / 16 = 0 ∧ decodeBytes op b1 b2 = matrixRow0 (op.toNat % 16) op b1 b2) ∨
    (op.toNat / 16 = 1 ∧ decodeBytes op b1 b2 = matrixRow1 (op.toNat % 16) op b1 b2) ∨
    (op.toNat / 16 = 2 ∧ decodeBytes op b1 b2 = matrixRow2 (op.toNat % 16) op b1 b2) ∨
    (op.toNat / 16 = 3 ∧ decodeBytes op b1 b2 = matrixRow3 (op.toNat % 16) op b1 b2) ∨
    (op.toNat / 16 = 4 ∧ decodeBytes op b1 b2 = matrixRow4 (op.toNat % 16) op b1 b2) ∨
    (op.toNat / 16 = 5 ∧ decodeBytes op b1 b2 = matrixRow5 (op.toNat % 16) op b1 b2) ∨
    (op.toNat / 16 = 6 ∧ decodeBytes op b1 b2 = matrixRow6 (op.toNat % 16) op b1 b2) ∨
    (op.toNat / 16 = 7 ∧ decodeBytes op b1 b2 = matrixRow7 (op.toNat % 16) op b1 b2) ∨
    (op.toNat / 16 = 8 ∧ decodeBytes op b1 b2 = matrixRow8 (op.toNat % 16) op b1 b2) ∨
    (op.toNat / 16 = 9 ∧ decodeBytes op b1 b2 = matrixRow9 (op.toNat % 16) op b1 b2) ∨
    (op.toNat / 16 = 10 ∧ decodeBytes op b1 b2 = matrixRowA (op.toNat % 16) op b1 b2) ∨
    (op.toNat / 16 = 11 ∧ decodeBytes op b1 b2 = matrixRowB (op.toNat % 16) op b1 b2) ∨
    (op.toNat / 16 = 12 ∧ decodeBytes op b1 b2 = matrixRowC (op.toNat % 16) op b1 b2) ∨
    (op.toNat / 16 = 13 ∧ decodeBytes op b1 b2 = matrixRowD (op.toNat % 16) op b1 b2) ∨
    (op.toNat / 16 = 14 ∧ decodeBytes op b1 b2 = matrixRowE (op.toNat % 16) op b1 b2) ∨
    (op.toNat / 16 = 15 ∧ decodeBytes op b1 b2 = matrixRowF (op.toNat % 16) op b1 b2) := by
  have h : op.toNat / 16 = 0 ∨ op.toNat / 16 = 1 ∨ op.toNat / 16 = 2 ∨ op.toNat / 16 = 3 ∨ op.toNat / 16 = 4 ∨
      op.toNat / 16 = 5 ∨ op.toNat / 16 = 6 ∨ op.toNat / 16 = 7 ∨ op.toNat / 16 = 8 ∨ op.toNat / 16 = 9 ∨
      op.toNat / 16 = 10 ∨ op.toNat / 16 = 11 ∨ op.toNat / 16 = 12 ∨ op.toNat / 16 = 13 ∨ op.toNat / 16 = 14 ∨
      op.toNat / 16 = 15 := by have := op.isLt; omega
  rcases h with h | h | h | h | h | h | h | h | h | h | h | h | h | h | h | h <;>
    simp only [decodeBytes, h, true_and, true_or, or_true]

/-- The lengths of the 256 opcodes (30_encoding.md R124), two bits each, opcode 0x00 lowest. -/
def lengths : Nat :=
  0x7d5d695a7f596a5a7d5d695a7f596a5a7f5d6a5a7f596a6a5d5d6a5a7f556a597d5d695a7f5969597d5d695a7f5969597d5d695a7f596a5b7d5d695a7d596959

theorem instrLength_eq : ∀ op : Byte, instrLength op = lengths >>> (2 * op.toNat) % 4 := by decide +kernel

theorem decodeBytes_zero_wf : ∀ op : Byte, (decodeBytes op 0 0).wf = true := by decide +kernel

/-- What the decoder answers is what the bytes it used encode, the opcode byte alone fixes the length (30_encoding.md
R120), and the answer is well formed. -/
theorem decodeBytes_spec (op b1 b2 : Byte) :
    encode (decodeBytes op b1 b2) = [op, b1, b2].take (decodeBytes op b1 b2).length ∧
      (decodeBytes op b1 b2).length = instrLength op ∧ (decodeBytes op b1 b2).wf = true := by
  have h0 := decodeBytes_zero_wf op
  generalize hi : decodeBytes op b1 b2 = i
  rcases decodeBytes_rows op b1 b2 with ⟨hr, e⟩ | ⟨hr, e⟩ | ⟨hr, e⟩ | ⟨hr, e⟩ | ⟨hr, e⟩ | ⟨hr, e⟩ | ⟨hr, e⟩ | ⟨hr, e⟩ |
    ⟨hr, e⟩ | ⟨hr, e⟩ | ⟨hr, e⟩ | ⟨hr, e⟩ | ⟨hr, e⟩ | ⟨hr, e⟩ | ⟨hr, e⟩ | ⟨hr, e⟩
  · rw [hi, matrixRow0.eq_def] at e
    split at e <;> subst e <;> first
      | (clear h0
         obtain rfl := byte_of hr ‹_›
         refine ⟨by first | (rw [encode, loByte_wordOf, hiByte_wordOf]; rfl) | rfl, ?_, rfl⟩
         rw [instrLength_eq, lengths]
         simp only [Instr.length, Instr.form, Operand.size, Nat.reduceMul, Nat.reduceAdd, BitVec.reduceToNat,
           Nat.reduceShiftRight, Nat.reduceMod])
      | (simp only [decodeBytes, matrixRow0, *] at h0
         exact ⟨rfl, by simp only [instrLength, decodeBytes, matrixRow0, *], h0⟩)
  · rw [hi, matrixRow1.eq_def] at e
    split at e <;> subst e <;> first
      | (clear h0
         obtain rfl := byte_of hr ‹_›
         refine ⟨by first | (rw [encode, loByte_wordOf, hiByte_wordOf]; rfl) | rfl, ?_, rfl⟩
         rw [instrLength_eq, lengths]
         simp only [Instr.length, Instr.form, Operand.size, Nat.reduceMul, Nat.reduceAdd, BitVec.reduceToNat,
           Nat.reduceShiftRight, Nat.reduceMod])
      | (simp only [decodeBytes, matrixRow1, *] at h0
         exact ⟨rfl, by simp only [instrLength, decodeBytes, matrixRow1, *], h0⟩)
  · rw [hi, matrixRow2.eq_def] at e
    split at e <;> subst e <;> first
      | (clear h0
         obtain rfl := byte_of hr ‹_›
         refine ⟨by first | (rw [encode, loByte_wordOf, hiByte_wordOf]; rfl) | rfl, ?_, rfl⟩
         rw [instrLength_eq, lengths]
         simp only [Instr.length, Instr.form, Operand.size, Nat.reduceMul, Nat.reduceAdd, BitVec.reduceToNat,
           Nat.reduceShiftRight, Nat.reduceMod])
      | (simp only [decodeBytes, matrixRow2, *] at h0
         exact ⟨rfl, by simp only [instrLength, decodeBytes, matrixRow2, *], h0⟩)
  · rw [hi, matrixRow3.eq_def] at e
    split at e <;> subst e <;> first
      | (clear h0
         obtain rfl := byte_of hr ‹_›
         refine ⟨by first | (rw [encode, loByte_wordOf, hiByte_wordOf]; rfl) | rfl, ?_, rfl⟩
         rw [instrLength_eq, lengths]
         simp only [Instr.length, Instr.form, Operand.size, Nat.reduceMul, Nat.reduceAdd, BitVec.reduceToNat,
           Nat.reduceShiftRight, Nat.reduceMod])
      | (simp only [decodeBytes, matrixRow3, *] at h0
         exact ⟨rfl, by simp only [instrLength, decodeBytes, matrixRow3, *], h0⟩)
  · rw [hi, matrixRow4.eq_def] at e
    split at e <;> subst e <;> first
      | (clear h0
         obtain rfl := byte_of hr ‹_›
         refine ⟨by first | (rw [encode, loByte_wordOf, hiByte_wordOf]; rfl) | rfl, ?_, rfl⟩
         rw [instrLength_eq, lengths]
         simp only [Instr.length, Instr.form, Operand.size, Nat.reduceMul, Nat.reduceAdd, BitVec.reduceToNat,
           Nat.reduceShiftRight, Nat.reduceMod])
      | (simp only [decodeBytes, matrixRow4, *] at h0
         exact ⟨rfl, by simp only [instrLength, decodeBytes, matrixRow4, *], h0⟩)
  · rw [hi, matrixRow5.eq_def] at e
    split at e <;> subst e <;> first
      | (clear h0
         obtain rfl := byte_of hr ‹_›
         refine ⟨by first | (rw [encode, loByte_wordOf, hiByte_wordOf]; rfl) | rfl, ?_, rfl⟩
         rw [instrLength_eq, lengths]
         simp only [Instr.length, Instr.form, Operand.size, Nat.reduceMul, Nat.reduceAdd, BitVec.reduceToNat,
           Nat.reduceShiftRight, Nat.reduceMod])
      | (simp only [decodeBytes, matrixRow5, *] at h0
         exact ⟨rfl, by simp only [instrLength, decodeBytes, matrixRow5, *], h0⟩)
  · rw [hi, matrixRow6.eq_def] at e
    split at e <;> subst e <;> first
      | (clear h0
         obtain rfl := byte_of hr ‹_›
         refine ⟨by first | (rw [encode, loByte_wordOf, hiByte_wordOf]; rfl) | rfl, ?_, rfl⟩
         rw [instrLength_eq, lengths]
         simp only [Instr.length, Instr.form, Operand.size, Nat.reduceMul, Nat.reduceAdd, BitVec.reduceToNat,
           Nat.reduceShiftRight, Nat.reduceMod])
      | (simp only [decodeBytes, matrixRow6, *] at h0
         exact ⟨rfl, by simp only [instrLength, decodeBytes, matrixRow6, *], h0⟩)
  · rw [hi, matrixRow7.eq_def] at e
    split at e <;> subst e <;> first
      | (clear h0
         obtain rfl := byte_of hr ‹_›
         refine ⟨by first | (rw [encode, loByte_wordOf, hiByte_wordOf]; rfl) | rfl, ?_, rfl⟩
         rw [instrLength_eq, lengths]
         simp only [Instr.length, Instr.form, Operand.size, Nat.reduceMul, Nat.reduceAdd, BitVec.reduceToNat,
           Nat.reduceShiftRight, Nat.reduceMod])
      | (simp only [decodeBytes, matrixRow7, *] at h0
         exact ⟨rfl, by simp only [instrLength, decodeBytes, matrixRow7, *], h0⟩)
  · rw [hi, matrixRow8.eq_def] at e
    split at e <;> subst e <;> first
      | (clear h0
         obtain rfl := byte_of hr ‹_›
         refine ⟨by first | (rw [encode, loByte_wordOf, hiByte_wordOf]; rfl) | rfl, ?_, rfl⟩
         rw [instrLength_eq, lengths]
         simp only [Instr.length, Instr.form, Operand.size, Nat.reduceMul, Nat.reduceAdd, BitVec.reduceToNat,
           Nat.reduceShiftRight, Nat.reduceMod])
      | (simp only [decodeBytes, matrixRow8, *] at h0
         exact ⟨rfl, by simp only [instrLength, decodeBytes, matrixRow8, *], h0⟩)
  · rw [hi, matrixRow9.eq_def] at e
    split at e <;> subst e <;> first
      | (clear h0
         obtain rfl := byte_of hr ‹_›
         refine ⟨by first | (rw [encode, loByte_wordOf, hiByte_wordOf]; rfl) | rfl, ?_, rfl⟩
         rw [instrLength_eq, lengths]
         simp only [Instr.length, Instr.form, Operand.size, Nat.reduceMul, Nat.reduceAdd, BitVec.reduceToNat,
           Nat.reduceShiftRight, Nat.reduceMod])
      | (simp only [decodeBytes, matrixRow9, *] at h0
         exact ⟨rfl, by simp only [instrLength, decodeBytes, matrixRow9, *], h0⟩)
  · rw [hi, matrixRowA.eq_def] at e
    split at e <;> subst e <;> first
      | (clear h0
         obtain rfl := byte_of hr ‹_›
         refine ⟨by first | (rw [encode, loByte_wordOf, hiByte_wordOf]; rfl) | rfl, ?_, rfl⟩
         rw [instrLength_eq, lengths]
         simp only [Instr.length, Instr.form, Operand.size, Nat.reduceMul, Nat.reduceAdd, BitVec.reduceToNat,
           Nat.reduceShiftRight, Nat.reduceMod])
      | (simp only [decodeBytes, matrixRowA, *] at h0
         exact ⟨rfl, by simp only [instrLength, decodeBytes, matrixRowA, *], h0⟩)
  · rw [hi, matrixRowB.eq_def] at e
    split at e <;> subst e <;> first
      | (clear h0
         obtain rfl := byte_of hr ‹_›
         refine ⟨by first | (rw [encode, loByte_wordOf, hiByte_wordOf]; rfl) | rfl, ?_, rfl⟩
         rw [instrLength_eq, lengths]
         simp only [Instr.length, Instr.form, Operand.size, Nat.reduceMul, Nat.reduceAdd, BitVec.reduceToNat,
           Nat.reduceShiftRight, Nat.reduceMod])
      | (simp only [decodeBytes, matrixRowB, *] at h0
         exact ⟨rfl, by simp only [instrLength, decodeBytes, matrixRowB, *], h0⟩)
  · rw [hi, matrixRowC.eq_def] at e
    split at e <;> subst e <;> first
      | (clear h0
         obtain rfl := byte_of hr ‹_›
         refine ⟨by first | (rw [encode, loByte_wordOf, hiByte_wordOf]; rfl) | rfl, ?_, rfl⟩
         rw [instrLength_eq, lengths]
         simp only [Instr.length, Instr.form, Operand.size, Nat.reduceMul, Nat.reduceAdd, BitVec.reduceToNat,
           Nat.reduceShiftRight, Nat.reduceMod])
      | (simp only [decodeBytes, matrixRowC, *] at h0
         exact ⟨rfl, by simp only [instrLength, decodeBytes, matrixRowC, *], h0⟩)
  · rw [hi, matrixRowD.eq_def] at e
    split at e <;> subst e <;> first
      | (clear h0
         obtain rfl := byte_of hr ‹_›
         refine ⟨by first | (rw [encode, loByte_wordOf, hiByte_wordOf]; rfl) | rfl, ?_, rfl⟩
         rw [instrLength_eq, lengths]
         simp only [Instr.length, Instr.form, Operand.size, Nat.reduceMul, Nat.reduceAdd, BitVec.reduceToNat,
           Nat.reduceShiftRight, Nat.reduceMod])
      | (simp only [decodeBytes, matrixRowD, *] at h0
         exact ⟨rfl, by simp only [instrLength, decodeBytes, matrixRowD, *], h0⟩)
  · rw [hi, matrixRowE.eq_def] at e
    split at e <;> subst e <;> first
      | (clear h0
         obtain rfl := byte_of hr ‹_›
         refine ⟨by first | (rw [encode, loByte_wordOf, hiByte_wordOf]; rfl) | rfl, ?_, rfl⟩
         rw [instrLength_eq, lengths]
         simp only [Instr.length, Instr.form, Operand.size, Nat.reduceMul, Nat.reduceAdd, BitVec.reduceToNat,
           Nat.reduceShiftRight, Nat.reduceMod])
      | (simp only [decodeBytes, matrixRowE, *] at h0
         exact ⟨rfl, by simp only [instrLength, decodeBytes, matrixRowE, *], h0⟩)
  · rw [hi, matrixRowF.eq_def] at e
    split at e <;> subst e <;> first
      | (clear h0
         obtain rfl := byte_of hr ‹_›
         refine ⟨by first | (rw [encode, loByte_wordOf, hiByte_wordOf]; rfl) | rfl, ?_, rfl⟩
         rw [instrLength_eq, lengths]
         simp only [Instr.length, Instr.form, Operand.size, Nat.reduceMul, Nat.reduceAdd, BitVec.reduceToNat,
           Nat.reduceShiftRight, Nat.reduceMod])
      | (simp only [decodeBytes, matrixRowF, *] at h0
         exact ⟨rfl, by simp only [instrLength, decodeBytes, matrixRowF, *], h0⟩)

/-- No opcode asks for more than two operand bytes. -/
theorem instrLength_bounds : ∀ op : Byte, instrLength op = 1 ∨ instrLength op = 2 ∨ instrLength op = 3 := by
  decide +kernel

end Sys2Proof
end

