-- ==== Sys2Proof/Laws/Exceptions.lean ====
section
/-! SUPPORT. Laws/Exceptions.lean: what calls, returns and the interrupt entry do to the state, and how a push
leaves the rest of memory. -/

namespace Sys2Proof.Machine

/-! ## The vectors lie in the ROM window -/

theorem vector_rom (k : IntKind) : 0x8000 ≤ k.vector ∧ 0x8000 ≤ k.vector + 1 := by
  cases k <;> exact ⟨by decide, by decide⟩

/-- What a read of the ROM window returns depends on the cartridge and the bank registers only. -/
theorem byteAt_rom_congr {a : Word} (h : 0x8000 ≤ a) {s t : State} (hm : t.mapper = s.mapper)
    (hc : t.cfg.cart = s.cfg.cart) : byteAt t a = byteAt s a := by
  rw [byteAt_rom h, byteAt_rom h, hm, hc]

/-! ## The interrupt entry -/

theorem read16_eq (a : Word) (s : State) :
    read16 a s = (word (byteAt (cpuRead a s).2 (a + 1)) (byteAt s a), (cpuRead (a + 1) (cpuRead a s).2).2) := rfl

/-- Reading a word of memory changes nothing. -/
theorem read16_memory {a : Word} (h : isMemory a = true) (h' : isMemory (a + 1) = true) (s : State) :
    read16 a s = (word (byteAt s (a + 1)) (byteAt s a), s) := by
  rw [read16_eq, cpuRead_memory h, cpuRead_memory h']

/-- The pushes, the flags and the program counter of the entry sequence (60_exceptions.md R410). -/
theorem interrupt_eq (k : IntKind) (s : State) : interrupt k s =
    (push (s.cpu.flags.toByte k.breakBit) (push (field s.cpu.pc 0 8) (push (field s.cpu.pc 8 8) s)) |>.setFlags
      { s.cpu.flags with i := true }).setPc (word (byteAt s (k.vector + 1)) (byteAt s k.vector)) := by
  obtain ⟨h, h'⟩ := vector_rom k
  unfold interrupt
  have hh : ∀ b : Word, b ≥ 0x8000 → b ≥ 0x6000 := fun b hb => by bv_omega
  simp only [read16_memory (isMemory_high (hh _ h)) (isMemory_high (hh _ h'))]
  rw [byteAt_rom_congr h (s := s) (by simp [push_eq]) (by simp [push_eq]),
    byteAt_rom_congr h' (s := s) (by simp [push_eq]) (by simp [push_eq])]

/-- The entry changes the CPU and three cells of work RAM. -/
theorem interrupt_units (k : IntKind) (s : State) : UnitsKept s (interrupt k s) := by
  rw [interrupt_eq, push_eq, push_eq, push_eq]
  exact ⟨⟨rfl, rfl, rfl, rfl, rfl, rfl, rfl, rfl, rfl, rfl, rfl, rfl, rfl⟩, rfl, rfl⟩

theorem interrupt_cpu (k : IntKind) (s : State) : (interrupt k s).cpu = { s.cpu with
    sp := s.cpu.sp - 3, flags := { s.cpu.flags with i := true }
    pc := word (byteAt s (k.vector + 1)) (byteAt s k.vector) } := by
  have h : s.cpu.sp - 1 - 1 - 1 = s.cpu.sp - 3 := by bv_omega
  rw [interrupt_eq]
  simp only [push_eq, State.setFlags_cpu, State.setPc_cpu, h]

/-- Memory after the entry: the three stack slots, everything else as before. -/
theorem byteAt_interrupt (k : IntKind) (s : State) (h : s.ram.wf = true) {a : Word} (ha : isMemory a = true) :
    byteAt (interrupt k s) a =
      if sameCell (stackAddr (s.cpu.sp - 2)) a then s.cpu.flags.toByte k.breakBit
      else if sameCell (stackAddr (s.cpu.sp - 1)) a then field s.cpu.pc 0 8
      else if sameCell (stackAddr s.cpu.sp) a then field s.cpu.pc 8 8
      else byteAt s a := by
  have e : ∀ (f : Flags) (pc : Word) (t : State), byteAt ((t.setFlags f).setPc pc) a = byteAt t a :=
    fun f pc t => byteAt_congr (s := t) (t := (t.setFlags f).setPc pc) rfl rfl rfl rfl a ha
  have h2 : s.cpu.sp - 1 - 1 = s.cpu.sp - 2 := by bv_omega
  rw [interrupt_eq, e, byteAt_push _ _ (wf_push _ _ (wf_push _ _ h)) ha, byteAt_push _ _ (wf_push _ _ h) ha,
    byteAt_push _ _ h ha]
  simp only [push_eq, h2]

theorem wf_interrupt (k : IntKind) (s : State) (h : s.ram.wf = true) : (interrupt k s).ram.wf = true := by
  rw [interrupt_eq, State.setPc_ram, State.setFlags_ram]
  exact wf_push _ _ (wf_push _ _ (wf_push _ _ h))

/-! ## Calls and returns -/

theorem callSubroutine_cpu (a : Word) (s : State) : (callSubroutine a s).cpu =
    { s.cpu with sp := s.cpu.sp - 2, pc := a } := by
  have h : s.cpu.sp - 1 - 1 = s.cpu.sp - 2 := by bv_omega
  unfold callSubroutine
  simp only [push_eq, State.setPc_cpu, h]

theorem callSubroutine_units (a : Word) (s : State) : UnitsKept s (callSubroutine a s) := by
  unfold callSubroutine
  simp only [push_eq]
  exact ⟨⟨rfl, rfl, rfl, rfl, rfl, rfl, rfl, rfl, rfl, rfl, rfl, rfl, rfl⟩, rfl, rfl⟩

/-- Memory after a call: the two stack slots, everything else as before. -/
theorem byteAt_callSubroutine (target : Word) (s : State) (h : s.ram.wf = true) {a : Word}
    (ha : isMemory a = true) :
    byteAt (callSubroutine target s) a =
      if sameCell (stackAddr (s.cpu.sp - 1)) a then field (s.cpu.pc - 1) 0 8
      else if sameCell (stackAddr s.cpu.sp) a then field (s.cpu.pc - 1) 8 8
      else byteAt s a := by
  have e : ∀ (pc : Word) (t : State), byteAt (t.setPc pc) a = byteAt t a :=
    fun pc t => byteAt_congr (s := t) (t := t.setPc pc) rfl rfl rfl rfl a ha
  unfold callSubroutine
  dsimp only
  rw [e, byteAt_push _ _ (wf_push _ _ h) ha, byteAt_push _ _ h ha]
  simp only [push_eq]

/-- RTS in one equation. -/
theorem returnFromSubroutine_eq (s : State) : returnFromSubroutine s = { s with cpu := { s.cpu with
    sp := s.cpu.sp + 2
    pc := word (byteAt s (stackAddr (s.cpu.sp + 2))) (byteAt s (stackAddr (s.cpu.sp + 1))) + 1 } } := by
  have h : s.cpu.sp + 1 + 1 = s.cpu.sp + 2 := by bv_omega
  unfold returnFromSubroutine State.setPc
  simp only [pull_eq, h]
  rw [memoryKept_withCpu s _ _ (isMemory_ram (stackAddr_ram _))]

/-- RTI in one equation. -/
theorem returnFromInterrupt_eq (s : State) : returnFromInterrupt s = { s with cpu := { s.cpu with
    sp := s.cpu.sp + 3, flags := Flags.ofByte (byteAt s (stackAddr (s.cpu.sp + 1)))
    pc := word (byteAt s (stackAddr (s.cpu.sp + 3))) (byteAt s (stackAddr (s.cpu.sp + 2))) } } := by
  have h : s.cpu.sp + 1 + 1 = s.cpu.sp + 2 := by bv_omega
  have h' : s.cpu.sp + 2 + 1 = s.cpu.sp + 3 := by bv_omega
  unfold returnFromInterrupt State.setPc State.setFlags
  simp only [pull_eq, h, h']
  rw [memoryKept_withCpu s _ (stackAddr (s.cpu.sp + 3)) (isMemory_ram (stackAddr_ram _)),
    memoryKept_withCpu s _ (stackAddr (s.cpu.sp + 2)) (isMemory_ram (stackAddr_ram _))]

end Sys2Proof.Machine
end

