-- ==== Sys2Proof/Laws/Cycle.lean ====
section
/-! SUPPORT. Laws/Cycle.lean: what a dot, a tick and a machine cycle change, what fetching does, and the cases of a
step. -/

namespace Sys2Proof.Machine

/-! ## The dot -/

@[simp] theorem ppuTick_cpu (s : State) :
    (ppuTick s).cpu = { s.cpu with pendNMI := s.cpu.pendNMI || raisesNmi s.ppu } := rfl
@[simp] theorem ppuTick_ppu (s : State) : (ppuTick s).ppu = advanceDot (dotEvents s) := rfl
@[simp] theorem ppuTick_ram (s : State) : (ppuTick s).ram = s.ram := rfl
@[simp] theorem ppuTick_pads (s : State) : (ppuTick s).pads = s.pads := rfl
@[simp] theorem ppuTick_vram (s : State) : (ppuTick s).vram = s.vram := rfl
@[simp] theorem ppuTick_palette (s : State) : (ppuTick s).palette = s.palette := rfl
@[simp] theorem ppuTick_apu (s : State) : (ppuTick s).apu = s.apu := rfl
@[simp] theorem ppuTick_prgRam (s : State) : (ppuTick s).prgRam = s.prgRam := rfl
@[simp] theorem ppuTick_chrRam (s : State) : (ppuTick s).chrRam = s.chrRam := rfl
@[simp] theorem ppuTick_mapper (s : State) : (ppuTick s).mapper = s.mapper := rfl
@[simp] theorem ppuTick_buttons0 (s : State) : (ppuTick s).buttons0 = s.buttons0 := rfl
@[simp] theorem ppuTick_buttons1 (s : State) : (ppuTick s).buttons1 = s.buttons1 := rfl
@[simp] theorem ppuTick_cfg (s : State) : (ppuTick s).cfg = s.cfg := rfl
@[simp] theorem ppuTick_snap (s : State) : (ppuTick s).snap = s.snap := rfl
@[simp] theorem ppuTick_frameCycle (s : State) : (ppuTick s).frameCycle = s.frameCycle := rfl
@[simp] theorem ppuTick_undSeen (s : State) : (ppuTick s).undSeen = s.undSeen := rfl
@[simp] theorem ppuTick_framesReady (s : State) :
    (ppuTick s).framesReady = s.framesReady + (endsFrame s.ppu).toNat := rfl

/-- The three dots change the picture unit, the NMI latch and the count of frames. -/
theorem threeDots_eq (s : State) : threeDots s = { s with
    ppu := (threeDots s).ppu
    cpu := { s.cpu with pendNMI := (threeDots s).cpu.pendNMI }
    framesReady := (threeDots s).framesReady } := rfl

/-! ## The CPU tick -/

@[simp] theorem beginTick_cpu (s : State) : (beginTick s).cpu = { s.cpu with
    cyc := s.cpu.cyc + 1, pendIRQ := s.cpu.pendIRQ || s.cfg.irqIn.contains (s.cpu.cyc + 1) } := rfl

/-- The state in which the CPU acts: the three dots have run, the tick is counted, the IRQ input sampled. -/
theorem beginTick_threeDots_eq (s : State) : beginTick (threeDots s) = { s with
    ppu := (threeDots s).ppu
    cpu := { s.cpu with
      pendNMI := (threeDots s).cpu.pendNMI, cyc := s.cpu.cyc + 1
      pendIRQ := s.cpu.pendIRQ || s.cfg.irqIn.contains (s.cpu.cyc + 1) }
    framesReady := (threeDots s).framesReady } := rfl

/-! ## The end of a step -/

/-- What a step does after the CPU tick: the audio tick, and the count of the cycle in its frame step. -/
def closeCycle (s : State) : State := countCycle (audioUnitTick s)

theorem afterNext_afterNext (f g : State → State) (o : Host.Outcome State Fault Refusal) :
    afterNext g (afterNext f o) = afterNext (fun s => g (f s)) o := by cases o <;> rfl

/-- The end of a frame changes the audio unit and nothing else. -/
theorem endFrame_cases (s : State) : ∃ u, endFrame s = { s with apu := u } ∧
    (u = s.apu ∨ u = generateFrameAudio s.cfg.params s.apu) := by
  unfold endFrame
  split
  · exact ⟨_, rfl, .inr rfl⟩
  · exact ⟨_, rfl, .inl rfl⟩

/-- Counting a cycle in the middle of a frame step. -/
theorem countCycle_mid {s : State} (h : s.frameCycle + 1 < s.cfg.params.cyclesPerFrame) :
    countCycle s = { s with frameCycle := s.frameCycle + 1 } := if_neg (by omega)

/-- Counting the last cycle of a frame step. -/
theorem countCycle_last {s : State} (h : s.cfg.params.cyclesPerFrame ≤ s.frameCycle + 1) :
    countCycle s = endFrame { s with frameCycle := 0 } := if_pos h

/-- The end of a step changes the audio unit and the count of cycles, and nothing else. -/
theorem closeCycle_eq (s : State) : closeCycle s = { s with
    apu := (closeCycle s).apu, frameCycle := (closeCycle s).frameCycle } := by
  unfold closeCycle
  by_cases h : (audioUnitTick s).cfg.params.cyclesPerFrame ≤ (audioUnitTick s).frameCycle + 1
  · rw [countCycle_last h]
    obtain ⟨u, e, -⟩ := endFrame_cases { audioUnitTick s with frameCycle := 0 }
    rw [e]; rfl
  · rw [countCycle_mid (by omega)]; rfl

@[simp] theorem closeCycle_cpu (s : State) : (closeCycle s).cpu = s.cpu := by rw [closeCycle_eq]
@[simp] theorem closeCycle_ppu (s : State) : (closeCycle s).ppu = s.ppu := by rw [closeCycle_eq]
@[simp] theorem closeCycle_ram (s : State) : (closeCycle s).ram = s.ram := by rw [closeCycle_eq]
@[simp] theorem closeCycle_pads (s : State) : (closeCycle s).pads = s.pads := by rw [closeCycle_eq]
@[simp] theorem closeCycle_vram (s : State) : (closeCycle s).vram = s.vram := by rw [closeCycle_eq]
@[simp] theorem closeCycle_palette (s : State) : (closeCycle s).palette = s.palette := by rw [closeCycle_eq]
@[simp] theorem closeCycle_prgRam (s : State) : (closeCycle s).prgRam = s.prgRam := by rw [closeCycle_eq]
@[simp] theorem closeCycle_chrRam (s : State) : (closeCycle s).chrRam = s.chrRam := by rw [closeCycle_eq]
@[simp] theorem closeCycle_mapper (s : State) : (closeCycle s).mapper = s.mapper := by rw [closeCycle_eq]
@[simp] theorem closeCycle_buttons0 (s : State) : (closeCycle s).buttons0 = s.buttons0 := by rw [closeCycle_eq]
@[simp] theorem closeCycle_buttons1 (s : State) : (closeCycle s).buttons1 = s.buttons1 := by rw [closeCycle_eq]
@[simp] theorem closeCycle_cfg (s : State) : (closeCycle s).cfg = s.cfg := by rw [closeCycle_eq]
@[simp] theorem closeCycle_snap (s : State) : (closeCycle s).snap = s.snap := by rw [closeCycle_eq]
@[simp] theorem closeCycle_undSeen (s : State) : (closeCycle s).undSeen = s.undSeen := by rw [closeCycle_eq]
@[simp] theorem closeCycle_framesReady (s : State) : (closeCycle s).framesReady = s.framesReady := by rw [closeCycle_eq]

/-- The four cases of a step (40_cpu_step_addressing.md R140, R141): an idle tick, the NMI entry, the IRQ entry, one
instruction. -/
theorem step_cases (s : State) :
    let u := beginTick (threeDots s)
    (0 < u.cpu.wait ∧ step s = .next (closeCycle { u with cpu := { u.cpu with wait := u.cpu.wait - 1 } })) ∨
    (u.cpu.wait = 0 ∧ u.cpu.pendNMI = true ∧ step s = .next (closeCycle (serviceNmi u))) ∨
    (u.cpu.wait = 0 ∧ u.cpu.pendNMI = false ∧ u.cpu.pendIRQ = true ∧ u.cpu.flags.i = false ∧
      step s = .next (closeCycle (serviceIrq u))) ∨
    (u.cpu.wait = 0 ∧ u.cpu.pendNMI = false ∧ (u.cpu.pendIRQ = false ∨ u.cpu.flags.i = true) ∧
      step s = afterNext closeCycle (exec (fetchInstr u).1 (fetchInstr u).2)) := by
  intro u
  have e : step s = afterNext closeCycle (if 0 < u.cpu.wait then
      .next { u with cpu := { u.cpu with wait := u.cpu.wait - 1 } } else executeStep u) := afterNext_afterNext _ _ _
  rw [e]
  by_cases hw : 0 < u.cpu.wait
  · exact .inl ⟨hw, by rw [if_pos hw]; rfl⟩
  · have hw' : u.cpu.wait = 0 := by omega
    refine .inr ?_
    rw [if_neg hw]
    unfold executeStep
    cases hn : u.cpu.pendNMI
    · refine .inr ?_
      cases hi : u.cpu.pendIRQ <;> cases hf : u.cpu.flags.i
      · exact .inr ⟨hw', rfl, .inl rfl, rfl⟩
      · exact .inr ⟨hw', rfl, .inl rfl, rfl⟩
      · exact .inl ⟨hw', rfl, rfl, rfl, rfl⟩
      · exact .inr ⟨hw', rfl, .inr rfl, rfl⟩
    · exact .inl ⟨hw', rfl, rfl⟩

/-! ## Fetching -/

theorem fetch_eq (s : State) : fetch s =
    (byteAt s s.cpu.pc, (cpuRead s.cpu.pc s).2.setPc (s.cpu.pc + 1)) := rfl

/-- A fetch from memory moves PC and changes nothing else. -/
theorem fetch_memory {s : State} (h : isMemory s.cpu.pc = true) : fetch s =
    (byteAt s s.cpu.pc, s.setPc (s.cpu.pc + 1)) := by rw [fetch_eq, cpuRead_memory h]

@[simp] theorem byteAt_setPc (pc : Word) (s : State) (a : Word) (ha : isMemory a = true) :
    byteAt (s.setPc pc) a = byteAt s a := memoryKept_withCpu s _ a ha

theorem fetch_setPc (pc : Word) (s : State) : fetch (s.setPc pc) =
    (byteAt s pc, (cpuRead pc s).2.setPc (pc + 1)) := by
  have h := cpuRead_setCpu pc s { s.cpu with pc := pc }
  unfold fetch byteAt
  rw [show cpuRead (s.setPc pc).cpu.pc (s.setPc pc) = _ from h]
  simp only [State.setPc, State.setCpu, cpuRead_cpu]

/-- Fetching an instruction of one byte. -/
theorem fetchInstr_one {s : State} (h : instrLength (byteAt s s.cpu.pc) = 1) : fetchInstr s =
    (decodeBytes (byteAt s s.cpu.pc) 0 0, (cpuRead s.cpu.pc s).2.setPc (s.cpu.pc + 1)) := by
  unfold fetchInstr
  simp only [fetch_eq, h, if_true]

/-- Fetching an instruction of two bytes: the second read sees what the first one did. -/
theorem fetchInstr_two {s : State} (h : instrLength (byteAt s s.cpu.pc) = 2) :
    fetchInstr s =
      (decodeBytes (byteAt s s.cpu.pc) (byteAt (cpuRead s.cpu.pc s).2 (s.cpu.pc + 1)) 0,
       (cpuRead (s.cpu.pc + 1) (cpuRead s.cpu.pc s).2).2.setPc (s.cpu.pc + 1 + 1)) := by
  unfold fetchInstr
  simp only [fetch_eq s, h, Nat.reduceEqDiff, if_true, if_false]
  rw [fetch_setPc]

/-- Fetching an instruction of three bytes. -/
theorem fetchInstr_three {s : State} (h : instrLength (byteAt s s.cpu.pc) = 3) :
    let s1 := (cpuRead s.cpu.pc s).2
    let s2 := (cpuRead (s.cpu.pc + 1) s1).2
    fetchInstr s =
      (decodeBytes (byteAt s s.cpu.pc) (byteAt s1 (s.cpu.pc + 1)) (byteAt s2 (s.cpu.pc + 1 + 1)),
       (cpuRead (s.cpu.pc + 1 + 1) s2).2.setPc (s.cpu.pc + 1 + 1 + 1)) := by
  unfold fetchInstr
  simp only [fetch_eq s, h, Nat.reduceEqDiff, if_false]
  rw [fetch_setPc]
  dsimp only
  rw [fetch_setPc]

/-- Fetching changes the program counter of the CPU and no other register. -/
theorem fetchInstr_cpu (s : State) : (fetchInstr s).2.cpu = { s.cpu with pc := (fetchInstr s).2.cpu.pc } := by
  rcases instrLength_bounds (byteAt s s.cpu.pc) with h | h | h
  · rw [fetchInstr_one h]; simp
  · rw [fetchInstr_two h]; simp
  · rw [fetchInstr_three h]; simp

/-- Fetching changes nothing but PC, the picture unit and the controller ports (through the reads' side effects). -/
theorem fetchInstr_eq (s : State) : (fetchInstr s).2 = { s with
    cpu := { s.cpu with pc := (fetchInstr s).2.cpu.pc }
    ppu := (fetchInstr s).2.ppu
    pads := (fetchInstr s).2.pads } := by
  rcases instrLength_bounds (byteAt s s.cpu.pc) with h | h | h
  · rw [fetchInstr_one h]; simp [State.setPc]
  · rw [fetchInstr_two h]; simp [State.setPc]
  · rw [fetchInstr_three h]; simp [State.setPc]

end Sys2Proof.Machine
end

