-- ==== Sys2Proof/Laws/Host.lean ====
section
/-! SUPPORT. Laws/Host.lean: what the host's operations do, field by field, and that the reset state is the power-on
state of the blank cartridge. -/

namespace Sys2Proof.Machine

/-- The program counter is primed from the word at 0xFFFC; nothing else changes. -/
theorem primePc_eq (s : State) : primePc s = s.setPc (word (byteAt s 0xFFFD) (byteAt s 0xFFFC)) := by
  unfold primePc
  rw [read16_memory (by decide) (by decide)]
  rfl

/-- `State.reset` is the power-on state of the blank cartridge. -/
theorem Laws.construct_blank : powerOnState blankConfig = State.reset := by
  unfold powerOnState
  rw [primePc_eq]
  rfl

/-- Between frame steps an operation of the host has its effect. -/
theorem hostStep_between {op : HostOp} {s : State} (h : s.frameCycle = 0) : hostStep op s = hostEffect op s := by
  unfold hostStep State.betweenFrames
  rw [h]; rfl

/-- In the middle of a frame step every operation is refused. -/
theorem hostStep_mid {op : HostOp} {s : State} (h : s.frameCycle ≠ 0) : hostStep op s = .refused .midFrameStep := by
  unfold hostStep State.betweenFrames
  rw [if_neg (by simpa using h)]

/-- Between frame steps a read answers. -/
theorem hostRead_between {α : Type} {s : State} (v : α) (h : s.frameCycle = 0) : hostRead s v = .ok v := by
  unfold hostRead State.betweenFrames
  rw [h]; rfl

/-- In the middle of a frame step a read is refused. -/
theorem hostRead_mid {α : Type} {s : State} (v : α) (h : s.frameCycle ≠ 0) : hostRead s v = .error .midFrameStep := by
  unfold hostRead State.betweenFrames
  rw [if_neg (by simpa using h)]

end Sys2Proof.Machine
end

