-- ==== Sys2Proof/Laws/Reach.lean ====
section
/-! SUPPORT. Laws/Reach.lean: whatever an instruction or an interrupt entry does, it does through reads and writes of
the CPU bus and changes of the CPU record. What those three keep, every instruction keeps. -/

namespace Sys2Proof.Machine

/-- `t` comes from `s` by reads and writes of the CPU bus, changes of the CPU record and the model's mark `undSeen`. -/
inductive BusReach (s : State) : State → Prop where
  | refl : BusReach s s
  | read (a : Word) {t : State} (h : BusReach s t) : BusReach s (cpuRead a t).2
  | write (a : Word) (v : Byte) {t : State} (h : BusReach s t) : BusReach s (cpuWrite a v t)
  | cpu (c : Cpu) {t : State} (h : BusReach s t) : BusReach s (t.setCpu c)
  | mark {t : State} (h : BusReach s t) : BusReach s { t with undSeen := true }

theorem BusReach.trans {s t u : State} (h : BusReach s t) (h' : BusReach t u) : BusReach s u := by
  induction h' with
  | refl => exact h
  | read a _ ih => exact .read a ih
  | write a v _ ih => exact .write a v ih
  | cpu c _ ih => exact .cpu c ih
  | mark _ ih => exact .mark ih

/-- Reached over the bus with no stall owed but in `wait`, within one tick. -/
def Ended (s t : State) : Prop := BusReach s t ∧ t.cpu.dmaStall = 0 ∧ t.cpu.cyc = s.cpu.cyc

theorem operand_reach (src : Source) (s : State) : BusReach s (operand src s).2 := by
  cases src with
  | imm b => exact .refl
  | mem m => exact .read _ .refl

theorem load_setA_reach (src : Source) (n : Nat) (s : State) : Ended s (load State.setA src n s) := by
  rw [load_setA_eq]; exact ⟨.cpu _ (operand_reach src s), rfl, rfl⟩

theorem load_setX_reach (src : Source) (n : Nat) (s : State) : Ended s (load State.setX src n s) := by
  rw [load_setX_eq]; exact ⟨.cpu _ (operand_reach src s), rfl, rfl⟩

theorem load_setY_reach (src : Source) (n : Nat) (s : State) : Ended s (load State.setY src n s) := by
  rw [load_setY_eq]; exact ⟨.cpu _ (operand_reach src s), rfl, rfl⟩

theorem accOp_reach (f : Byte → Byte → Flags → Byte × Flags) (src : Source) (n : Nat) (s : State) :
    Ended s (accOp f src n s) := by
  rw [accOp_eq]; exact ⟨.cpu _ (operand_reach src s), rfl, rfl⟩

theorem flagOp_reach (f : Byte → Flags → Flags) (src : Source) (n : Nat) (s : State) : Ended s (flagOp f src n s) := by
  rw [flagOp_eq]; exact ⟨.cpu _ (operand_reach src s), rfl, rfl⟩

theorem store_reach (v : Byte) (m : Addr) (n : Nat) (s : State) : Ended s (store v m n s) := by
  rw [store_eq]; exact ⟨.cpu _ (.write _ _ .refl), rfl, rfl⟩

theorem rmwMem_reach (f : Byte → Flags → Byte × Flags) (m : Addr) (n : Nat) (s : State) :
    Ended s (rmwMem f m n s) := by
  rw [rmwMem_eq]; exact ⟨.cpu _ (.write _ _ (.read _ .refl)), rfl, rfl⟩

theorem finish_reach {s t : State} (n : Nat) (h : BusReach s t) (hc : t.cpu.cyc = s.cpu.cyc) :
    Ended s (t.finish n) := ⟨.cpu _ h, rfl, hc⟩

theorem push_bus (v : Byte) (s : State) : BusReach s (push v s) := .cpu _ (.write _ _ .refl)

theorem push_reach (v : Byte) (n : Nat) (s : State) : Ended s ((push v s).finish n) := finish_reach n (push_bus v s) (by rw [push_eq])

theorem pull_bus (s : State) : BusReach s (pull s).2 := by rw [pull_eq]; exact .cpu _ .refl

theorem pullA_reach (n : Nat) (s : State) : Ended s ((pullA s).finish n) :=
  finish_reach n (.cpu _ (.cpu _ (pull_bus s))) (by simp [pullA, pull_eq])

theorem pullFlags_reach (n : Nat) (s : State) : Ended s ((pullFlags s).finish n) :=
  finish_reach n (.cpu _ (pull_bus s)) (by simp [pullFlags, pull_eq])

theorem callSubroutine_reach (a : Word) (n : Nat) (s : State) : Ended s ((callSubroutine a s).finish n) :=
  finish_reach n (.cpu _ ((push_bus _ s).trans (push_bus _ _))) (by rw [callSubroutine_cpu])

theorem returnFromSubroutine_reach (n : Nat) (s : State) : Ended s ((returnFromSubroutine s).finish n) := by
  rw [returnFromSubroutine_eq]; exact finish_reach n (.cpu _ .refl) rfl

theorem returnFromInterrupt_reach (n : Nat) (s : State) : Ended s ((returnFromInterrupt s).finish n) := by
  rw [returnFromInterrupt_eq]; exact finish_reach n (.cpu _ .refl) rfl

theorem jumpIndirect_reach (p : Word) (n : Nat) (s : State) : Ended s (jumpIndirect p n s) := by
  refine ⟨.cpu _ (.cpu _ (.read (word (field p 8 8) (field p 0 8 + 1)) (.read p .refl))), rfl, ?_⟩
  unfold jumpIndirect jmpPointer
  simp

theorem branch_reach (taken : Bool) (d : Byte) (n : Nat) (s : State) : Ended s (branch taken d n s) := by
  cases taken
  · exact finish_reach _ .refl rfl
  · exact finish_reach _ (.cpu _ .refl) rfl

theorem interrupt_reach (k : IntKind) (n : Nat) (s : State) : Ended s ((interrupt k s).finish n) := by
  have hc : (interrupt k s).cpu.cyc = s.cpu.cyc := by rw [interrupt_cpu]
  rw [interrupt_eq] at hc ⊢
  exact finish_reach n (.cpu _ (.cpu _ (((push_bus _ s).trans (push_bus _ _)).trans (push_bus _ _)))) hc

theorem Ended.of_exec {i : Instr} {s u t : State} (hu : Ended s u) (e : exec i s = .next u) (h : exec i s = .next t) :
    Ended s t := by
  obtain rfl := Host.Outcome.next.inj (e.symm.trans h)
  exact hu

/-- Every instruction acts through the bus and the CPU record, leaves no stall but in `wait`, and leaves the tick
counter. -/
theorem exec_reach {i : Instr} {s t : State} (h : exec i s = .next t) : Ended s t := by
  cases i
  case ldaImm | ldaZp | ldaZpx | ldaAbs | ldaAbx | ldaAby | ldaIzx | ldaIzy =>
    exact (load_setA_reach _ _ s).of_exec rfl h
  case ldxImm | ldxZp | ldxZpy | ldxAbs | ldxAby =>
    exact (load_setX_reach _ _ s).of_exec rfl h
  case ldyImm | ldyZp | ldyZpx | ldyAbs | ldyAbx =>
    exact (load_setY_reach _ _ s).of_exec rfl h
  case staZp | staZpx | staAbs | staAbx | staAby | staIzx | staIzy | stxZp | stxZpy | stxAbs | styZp | styZpx |
    styAbs =>
    exact (store_reach _ _ _ s).of_exec rfl h
  case tax | tay | txa | tya | tsx | txs | inx | iny | dex | dey | aslAcc | lsrAcc | rolAcc | rorAcc | jmpAbs | clc |
    sec | cli | sei | cld | sed | clv | nop =>
    exact Ended.of_exec (by first
      | exact finish_reach _ .refl rfl
      | exact finish_reach _ (.cpu _ .refl) rfl
      | exact finish_reach _ (.cpu _ (.cpu _ .refl)) rfl) rfl h
  case pha | php =>
    exact (push_reach _ _ s).of_exec rfl h
  case pla =>
    exact (pullA_reach _ s).of_exec rfl h
  case plp =>
    exact (pullFlags_reach _ s).of_exec rfl h
  case adcImm | adcZp | adcZpx | adcAbs | adcAbx | adcAby | adcIzx | adcIzy | sbcImm | sbcZp | sbcZpx | sbcAbs |
    sbcAbx | sbcAby | sbcIzx | sbcIzy | andImm | andZp | andZpx | andAbs | andAbx | andAby | andIzx | andIzy |
    oraImm | oraZp | oraZpx | oraAbs | oraAbx | oraAby | oraIzx | oraIzy | eorImm | eorZp | eorZpx | eorAbs |
    eorAbx | eorAby | eorIzx | eorIzy =>
    exact (accOp_reach _ _ _ s).of_exec rfl h
  case bitZp | bitAbs | cmpImm | cmpZp | cmpZpx | cmpAbs | cmpAbx | cmpAby | cmpIzx | cmpIzy | cpxImm | cpxZp |
    cpxAbs | cpyImm | cpyZp | cpyAbs =>
    exact (flagOp_reach _ _ _ s).of_exec rfl h
  case incZp | incZpx | incAbs | incAbx | decZp | decZpx | decAbs | decAbx | aslZp | aslZpx | aslAbs | aslAbx |
    lsrZp | lsrZpx | lsrAbs | lsrAbx | rolZp | rolZpx | rolAbs | rolAbx | rorZp | rorZpx | rorAbs | rorAbx =>
    exact (rmwMem_reach _ _ _ s).of_exec rfl h
  case jmpInd =>
    exact (jumpIndirect_reach _ _ s).of_exec rfl h
  case jsrAbs =>
    exact (callSubroutine_reach _ _ s).of_exec rfl h
  case rts =>
    exact (returnFromSubroutine_reach _ s).of_exec rfl h
  case rti =>
    exact (returnFromInterrupt_reach _ s).of_exec rfl h
  case brk =>
    exact Ended.of_exec ⟨(BusReach.cpu _ .refl).trans (interrupt_reach .brk 7 (s.setPc (s.cpu.pc + 1))).1, rfl,
      (interrupt_reach .brk 7 (s.setPc (s.cpu.pc + 1))).2.2⟩ rfl h
  case bccRel | bcsRel | beqRel | bneRel | bmiRel | bplRel | bvcRel | bvsRel =>
    exact (branch_reach _ _ _ s).of_exec rfl h
  case und =>
    exact Ended.of_exec (finish_reach _ (.mark .refl) rfl) rfl h

theorem fetchInstr_reach (s : State) : BusReach s (fetchInstr s).2 := by
  rcases instrLength_bounds (byteAt s s.cpu.pc) with h | h | h
  · rw [fetchInstr_one h]; exact .cpu _ (.read _ .refl)
  · rw [fetchInstr_two h]; exact .cpu _ (.read _ (.read _ .refl))
  · rw [fetchInstr_three h]; exact .cpu _ (.read _ (.read _ (.read _ .refl)))

/-- What a step can do, in one line: three dots, then reads, writes and CPU changes, then the end of the cycle. -/
theorem step_reach {s t : State} (h : step s = .next t) :
    ∃ u, BusReach (threeDots s) u ∧ (u.cpu.dmaStall = 0 ∨ u.cpu.dmaStall = s.cpu.dmaStall) ∧
      u.cpu.cyc = s.cpu.cyc + 1 ∧ t = closeCycle u := by
  have hb : BusReach (threeDots s) (beginTick (threeDots s)) := .cpu _ .refl
  have hw : ∀ k c, BusReach (threeDots s) ((interrupt k ((beginTick (threeDots s)).setCpu c)).finish interruptCycles) :=
    fun k c => hb.trans ((BusReach.cpu c .refl).trans (interrupt_reach k interruptCycles _).1)
  rcases step_cases s with ⟨_, e⟩ | ⟨_, _, e⟩ | ⟨_, _, _, _, e⟩ | ⟨_, _, _, e⟩
  · rw [e] at h
    exact ⟨_, .cpu { (beginTick (threeDots s)).cpu with wait := (beginTick (threeDots s)).cpu.wait - 1 } hb, .inr rfl, rfl,
      (Host.Outcome.next.inj h).symm⟩
  · rw [e] at h
    exact ⟨_, hw .nmi _, .inl rfl, (interrupt_reach .nmi interruptCycles _).2.2, (Host.Outcome.next.inj h).symm⟩
  · rw [e] at h
    exact ⟨_, hw .irq _, .inl rfl, (interrupt_reach .irq interruptCycles _).2.2, (Host.Outcome.next.inj h).symm⟩
  · rw [e] at h
    cases hx : exec (fetchInstr (beginTick (threeDots s))).1 (fetchInstr (beginTick (threeDots s))).2 with
    | next u =>
      rw [hx] at h
      obtain ⟨h1, h2, h3⟩ := exec_reach hx
      exact ⟨u, (hb.trans (fetchInstr_reach _)).trans h1, .inl h2, h3.trans (by rw [fetchInstr_cpu]; rfl),
        (Host.Outcome.next.inj h).symm⟩
    | fault r => cases r
    | refused r => rw [hx] at h; cases h

end Sys2Proof.Machine
end

