-- ==== Sys2Proof/Laws/Keep.lean ====
section
/-! SUPPORT. Laws/Keep.lean: reads and writes of the two buses keep every memory canonical and inside its size, and the
other conditions of `LiveOk`. -/

namespace Sys2Proof.Machine

theorem MemoryOk.write {w size a : Nat} {m : Memory w} (h : MemoryOk size m) (b : BitVec w) (ha : a < size) :
    MemoryOk size (m.write a b) := ⟨Memory.wf_write a b h.1, Memory.within_write b ha h.2⟩

theorem MemoryOk.nil (w size : Nat) : MemoryOk size ([] : Memory w) := ⟨rfl, rfl⟩

/-! ## The index of every memory access lies inside the memory -/

theorem ramIndex_lt (a : Word) : (a &&& 0x07FF).toNat < ramSize := by
  rw [ramIndex]; exact Nat.mod_lt _ (by decide)

theorem prgRamOffset_lt (a : Word) : prgRamOffset a < prgRamSize := by
  rw [prgRamOffset_eq]; exact Nat.mod_lt _ (by decide)

theorem ntIndex_lt (m : Mirroring) (a : Nat) : ntIndex m a < vramSize := by
  have h : ntPage m (a % 4096 / 1024) < 4 := by
    have : a % 4096 / 1024 < 4 := by omega
    cases m <;> simp only [ntPage] <;> omega
  simp only [ntIndex, vramSize]
  omega

theorem palIndex_lt (a : Nat) : palIndex a < paletteSize := by
  simp only [palIndex, paletteSize]
  split <;> omega

theorem chrIndex_lt (cart : Cart) (m : MapperRegs) {a : Nat} (ha : a < 0x2000) (h : cart.chrBanks = 0) :
    chrIndex cart m a < chrRamSize := by
  unfold chrIndex chrRamSize
  cases cart.mapperId <;> simp only [h, if_true] <;> omega

theorem fbIndex_lt {y x : Nat} (hy : y < screenHeight) (hx : x < screenWidth) : fbIndex y x < fbSize := by
  simp only [fbIndex, fbSize, screenWidth, screenHeight] at *
  omega

/-! ## The conditions on one unit at a time -/

/-- The conditions of `LiveOk` outside the CPU: those that the bus keeps at every moment of a step. -/
structure BusOk (s : State) : Prop where
  ram : MemoryOk ramSize s.ram
  vram : MemoryOk vramSize s.vram
  palette : MemoryOk paletteSize s.palette
  prgRam : MemoryOk prgRamSize s.prgRam
  chrRam : MemoryOk chrRamSize s.chrRam
  noPrgRam : s.cfg.cart.hasPrgRam = false → s.prgRam = []
  noChrRam : s.cfg.cart.chrBanks ≠ 0 → s.chrRam = []
  ppu : PpuOk s.ppu
  apu : ApuOk s.cfg.params s.apu
  mapper : MapperOk s.mapper

theorem Inv.busOk {s : State} (h : Inv s) : BusOk s :=
  ⟨h.live.ram, h.live.vram, h.live.palette, h.live.prgRam, h.live.chrRam, h.live.noPrgRam, h.live.noChrRam, h.live.ppu,
    h.live.apu, h.live.mapper⟩

/-- The picture unit's condition does not look at its registers. -/
theorem PpuOk.of_same {p q : Ppu} (h : PpuOk p) (h1 : q.scanline = p.scanline) (h2 : q.dot = p.dot) (h3 : q.oam = p.oam)
    (h4 : q.fb = p.fb) (h5 : q.sprCur = p.sprCur) (h6 : q.sprNext = p.sprNext) : PpuOk q :=
  ⟨h1 ▸ h.scanline, h2 ▸ h.dot, h3 ▸ h.oam, h4 ▸ h.fb, h5 ▸ h.sprCur, h6 ▸ h.sprNext⟩

theorem PpuOk.withOam {p : Ppu} (h : PpuOk p) (k b a : Byte) :
    PpuOk { p with oam := p.oam.write k.toNat b, oamaddr := a } :=
  { h with oam := h.oam.write b k.isLt }

/-! ## Reads -/

theorem cpuRead_ppuOk (a : Word) {s : State} (h : PpuOk s.ppu) : PpuOk (cpuRead a s).2.ppu := by
  unfold cpuRead ppuReadReg readStatus readData readPad0 readPad1
  split
  · exact h
  split
  · split
    · exact { h with }
    · exact h
    · dsimp only; split <;> exact { h with }
    · exact h
  split
  · exact h
  split
  · dsimp only; split <;> exact h
  split
  · dsimp only; split <;> exact h
  split
  · exact h
  split <;> exact h

theorem BusOk.read (a : Word) {s : State} (h : BusOk s) : BusOk (cpuRead a s).2 :=
  { ram := by simpa using h.ram, vram := by simpa using h.vram, palette := by simpa using h.palette
    prgRam := by simpa using h.prgRam, chrRam := by simpa using h.chrRam
    noPrgRam := by simpa using h.noPrgRam, noChrRam := by simpa using h.noChrRam
    ppu := cpuRead_ppuOk a h.ppu, apu := by simpa using h.apu, mapper := by simpa using h.mapper }

/-! ## Writes -/

theorem BusOk.ppuWrite (a : Word) (d : Byte) {s : State} (h : BusOk s) : BusOk (ppuWrite a d s) := by
  unfold Machine.ppuWrite
  dsimp only
  split
  · next hp =>
    refine { h with chrRam := ?_, noChrRam := ?_ }
    · show MemoryOk chrRamSize (writeChr s.cfg.cart s.mapper _ d s.chrRam)
      unfold writeChr
      split
      · next hc => exact h.chrRam.write d (chrIndex_lt _ _ hp hc)
      · exact h.chrRam
    · intro hc
      show writeChr s.cfg.cart s.mapper _ d s.chrRam = []
      rw [writeChr, if_neg hc]
      exact h.noChrRam hc
  · split
    · exact { h with vram := h.vram.write d (ntIndex_lt _ _) }
    · exact { h with palette := h.palette.write d (palIndex_lt _) }

theorem BusOk.ppuWriteReg (r : BitVec 3) (d : Byte) {s : State} (h : BusOk s) : BusOk (ppuWriteReg r d s) := by
  unfold Machine.ppuWriteReg
  split
  · exact { h with ppu := { h.ppu with } }
  · exact { h with ppu := { h.ppu with } }
  · exact { h with ppu := { h.ppu with } }
  · exact { h with ppu := h.ppu.withOam _ _ _ }
  · refine { h with ppu := ?_ }
    show PpuOk (writeScroll d s.ppu)
    unfold writeScroll
    split <;> exact { h.ppu with }
  · refine { h with ppu := ?_ }
    show PpuOk (writeAddr d s.ppu)
    unfold writeAddr
    split <;> exact { h.ppu with }
  · have h2 := h.ppuWrite s.ppu.addr d
    exact { h2 with ppu := { h2.ppu with } }
  · exact h

theorem BusOk.dmaCopy (page : Byte) : ∀ (n : Nat) (i : Byte) {s : State}, BusOk s → BusOk (dmaCopy page n i s)
  | 0, _, _, h => h
  | n + 1, i, s, h => by
    rw [dmaCopy_succ]
    have h2 := h.read (word page i)
    exact BusOk.dmaCopy page n (i + 1) { h2 with ppu := h2.ppu.withOam _ _ _ }

theorem BusOk.oamDma (page : Byte) {s : State} (h : BusOk s) : BusOk (oamDma page s) := by
  have h2 := h.dmaCopy page 256 0
  unfold Machine.oamDma
  generalize Machine.dmaCopy page 256 0 s = t at h2
  exact { h2 with }

theorem mmc1Write_ok (a : Word) (d : Byte) {m : MapperRegs} (h : MapperOk m) : MapperOk (mmc1Write a d m) := by
  unfold mmc1Write
  split
  · exact ⟨Nat.zero_lt_succ 4, Nat.zero_lt_succ 0⟩
  · dsimp only
    split
    · exact ⟨Nat.zero_lt_succ 4, Nat.zero_lt_succ 0⟩
    · next hc =>
      have h5 := h.srCount
      refine ⟨by show m.srCount + 1 < 5; omega, ?_⟩
      have hb : ((BitVec.ofBool (d.getLsbD 0)).setWidth 5 <<< m.srCount : BitVec 5).toNat < 2 ^ (m.srCount + 1) := by
        have h1 : ((BitVec.ofBool (d.getLsbD 0)).setWidth 5 : BitVec 5).toNat < 2 := by
          cases d.getLsbD 0 <;> decide
        rw [BitVec.toNat_shiftLeft, Nat.shiftLeft_eq]
        refine Nat.lt_of_le_of_lt (Nat.mod_le _ _) ?_
        rw [Nat.pow_succ]
        have : 0 < 2 ^ m.srCount := Nat.two_pow_pos _
        calc _ < 2 * 2 ^ m.srCount := Nat.mul_lt_mul_of_pos_right h1 this
          _ = _ := Nat.mul_comm _ _
      show (m.sr ||| _).toNat < _
      rw [BitVec.toNat_or]
      exact Nat.or_lt_two_pow (Nat.lt_trans h.sr (Nat.pow_lt_pow_right (by decide) (Nat.lt_succ_self _))) hb

theorem writePrg_ok (cart : Cart) (a : Word) (d : Byte) {m : MapperRegs} (h : MapperOk m) :
    MapperOk (writePrg cart a d m) := by
  unfold writePrg
  split
  · exact h
  · exact mmc1Write_ok a d h
  · exact { h with }
  · exact { h with }

/-! ## The audio unit -/

theorem setPulsePeriod_ok {p : Params} {ch : Pulse} (x : BitVec 11) (h : PulseOk p ch) :
    PulseOk p (setPulsePeriod p x ch) := ⟨.inr rfl, h.phase⟩

theorem setTriPeriod_ok {p : Params} {ch : Tri} (x : BitVec 11) (h : TriOk p ch) : TriOk p (setTriPeriod p x ch) :=
  ⟨.inr rfl, h.phase⟩

theorem sweepClock_ok {p : Params} {ch : Pulse} (extra : Int) (h : PulseOk p ch) :
    PulseOk p (sweepClock p extra ch) := by
  have h1 : PulseOk p (if sweepActs extra ch then setPulsePeriod p (BitVec.ofInt 11 (sweepTarget extra ch)) ch else ch) := by
    split
    · exact setPulsePeriod_ok _ h
    · exact h
  unfold sweepClock
  dsimp only
  split <;> exact { h1 with }

theorem quarterClock_ok {p : Params} {u : Apu} (h : ApuOk p u) : ApuOk p (quarterClock u) :=
  { h with tri := { h.tri with } }

theorem halfClock_ok {p : Params} {u : Apu} (h : ApuOk p u) : ApuOk p (halfClock p u) :=
  { h with
    pulse0 := sweepClock_ok 1 { h.pulse0 with }
    pulse1 := sweepClock_ok 0 { h.pulse1 with }
    tri := { h.tri with }
    noise := { h.noise with } }

theorem sequencerStep_ok {p : Params} {u : Apu} (five : Bool) (k : Nat) (h : ApuOk p u) :
    ApuOk p (sequencerStep p five k u) := by
  unfold sequencerStep
  split <;> first | exact quarterClock_ok h | exact halfClock_ok (quarterClock_ok h) | exact h

theorem seqLength_pos (five : Bool) : 0 < seqLength five := by cases five <;> decide

theorem sequencerStep_seq (p : Params) (five : Bool) (k : Nat) (u : Apu) :
    (sequencerStep p five k u).seqMode = u.seqMode ∧ (sequencerStep p five k u).seqCount = u.seqCount := by
  unfold sequencerStep
  split <;> exact ⟨rfl, rfl⟩

theorem apuTick_ok {p : Params} {u : Apu} (h : ApuOk p u) : ApuOk p (apuTick p u) := by
  have hc := h.seqCount
  unfold apuTick
  split
  · have h0 : 0 < p.qfPeriod := Nat.lt_of_le_of_lt (Nat.zero_le _) hc
    have h2 := sequencerStep_ok (u := { u with seqCount := 0 }) u.seqMode u.seqStep { h with seqCount := h0 }
    refine { h2 with seqStep := ?_ }
    show (u.seqStep + 1) % seqLength u.seqMode < seqLength (sequencerStep p _ _ _).seqMode
    rw [(sequencerStep_seq p _ _ _).1]
    exact Nat.mod_lt _ (seqLength_pos _)
  · next hn =>
    refine { h with seqCount := ?_ }
    show u.seqCount + 1 < p.qfPeriod
    omega

theorem apuWrite_ok {p : Params} {u : Apu} (k : BitVec 5) (d : Byte) (h : ApuOk p u) : ApuOk p (apuWrite p k d u) := by
  have hq : 0 < p.qfPeriod := Nat.lt_of_le_of_lt (Nat.zero_le _) h.seqCount
  unfold apuWrite
  split
  · exact { h with pulse0 := { h.pulse0 with } }
  · exact { h with pulse0 := { h.pulse0 with } }
  · exact { h with pulse0 := setPulsePeriod_ok _ h.pulse0 }
  · exact { h with pulse0 := { setPulsePeriod_ok _ h.pulse0 with } }
  · exact { h with pulse1 := { h.pulse1 with } }
  · exact { h with pulse1 := { h.pulse1 with } }
  · exact { h with pulse1 := setPulsePeriod_ok _ h.pulse1 }
  · exact { h with pulse1 := { setPulsePeriod_ok _ h.pulse1 with } }
  · exact { h with tri := { h.tri with } }
  · exact { h with tri := setTriPeriod_ok _ h.tri }
  · exact { h with tri := { setTriPeriod_ok _ h.tri with } }
  · exact { h with noise := { h.noise with } }
  · exact { h with noise := { h.noise with freq := .inr rfl } }
  · exact { h with noise := { h.noise with } }
  · exact { h with }
  · exact { h with }
  · exact { h with }
  · exact { h with }
  · exact { h with
            pulse0 := { h.pulse0 with }, pulse1 := { h.pulse1 with }, tri := { h.tri with }, noise := { h.noise with } }
  · have h1 : ApuOk p { u with seqMode := d.getLsbD 7, irqInhibit := d.getLsbD 6, seqCount := 0, seqStep := 0 } :=
      { h with seqCount := hq, seqStep := seqLength_pos _ }
    unfold writeSequencer
    dsimp only
    split
    · exact halfClock_ok (quarterClock_ok h1)
    · exact h1
  · exact h

/-! ## The whole bus -/

/-- A write of the CPU bus keeps every memory canonical and inside its size, and the other conditions. -/
theorem BusOk.write (a : Word) (v : Byte) {s : State} (h : BusOk s) : BusOk (cpuWrite a v s) := by
  rcases cpuWrite_cases a v s with ⟨_, e⟩ | ⟨_, _, e⟩ | ⟨_, e⟩ | ⟨_, e⟩ | ⟨_, _, _, _, e⟩ | ⟨_, _, e⟩ |
    ⟨_, _, hc, e⟩ | ⟨_, _, _, e⟩ | ⟨_, e⟩ <;> rw [e]
  · exact { h with ram := h.ram.write v (ramIndex_lt a) }
  · exact h.ppuWriteReg _ _
  · exact h.oamDma v
  · rw [writeStrobe_eq]; exact { h with }
  · exact { h with apu := apuWrite_ok _ _ h.apu }
  · exact h
  · exact { h with
            prgRam := h.prgRam.write v (prgRamOffset_lt a)
            noPrgRam := fun hn => absurd hc (by rw [hn]; decide) }
  · exact h
  · exact { h with mapper := writePrg_ok _ _ _ h.mapper }

theorem BusReach.busOk {s t : State} (h : BusReach s t) (hs : BusOk s) : BusOk t := by
  induction h with
  | refl => exact hs
  | read a _ ih => exact ih.read a
  | write a v _ ih => exact ih.write a v
  | cpu c _ ih => exact { ih with }
  | mark _ ih => exact { ih with }

/-- What the bus and the CPU never change. -/
theorem BusReach.fixed {s t : State} (h : BusReach s t) :
    t.cfg = s.cfg ∧ t.snap = s.snap ∧ t.buttons0 = s.buttons0 ∧ t.buttons1 = s.buttons1 ∧
      t.framesReady = s.framesReady ∧ t.frameCycle = s.frameCycle := by
  induction h with
  | refl => exact ⟨rfl, rfl, rfl, rfl, rfl, rfl⟩
  | read a _ ih => simpa using ih
  | write a v _ ih => simpa using ih
  | cpu c _ ih => exact ih
  | mark _ ih => exact ih

end Sys2Proof.Machine
end

