-- ==== Sys2Proof/Laws/PerInstr.lean ====
section
/-! SUPPORT. Laws/PerInstr.lean: for every instruction, as syntax: its encoding is as long as its addressing mode says,
and its first byte fixes that length (30_encoding.md R120 to R124, R128). -/

namespace Sys2Proof.Laws.OpcodeRow

open Sys2Proof

def Statement (i : Instr) : Prop :=
  ∃ op, (encode i).head? = some op ∧ (encode i).length = i.length ∧ (i.wf = true → instrLength op = i.length)

theorem length_undefined : ∀ op ∈ undefinedOpcodes, instrLength op = 1 := by
  have h : undefinedOpcodes.all (fun op => Nat.beq (lengths >>> (2 * op.toNat) % 4) 1) = true := by decide +kernel
  intro op ho
  rw [instrLength_eq, Nat.eq_of_beq_eq_true (List.all_eq_true.1 h op ho)]

theorem und (op : Byte) : Statement (.und op) :=
  ⟨op, rfl, rfl, fun h => length_undefined op (List.contains_iff_mem.1 h)⟩

/-- A documented row: the length is that of the instruction that the opcode byte, a constant, begins. -/
theorem documented {i : Instr} (op : Byte) (j : Instr) (hj : decodeBytes op 0 0 = j) (h1 : (encode i).head? = some op)
    (h2 : (encode i).length = j.length) (hl : i.length = j.length) : Statement i :=
  ⟨op, h1, h2.trans hl.symm, fun _ => by rw [instrLength, hj, hl]⟩

theorem ldaImm (b : Byte) : Statement (.ldaImm b) :=
  documented 0xA9 (.ldaImm 0) rfl rfl rfl rfl
theorem ldaZp (z : Byte) : Statement (.ldaZp z) :=
  documented 0xA5 (.ldaZp 0) rfl rfl rfl rfl
theorem ldaZpx (z : Byte) : Statement (.ldaZpx z) :=
  documented 0xB5 (.ldaZpx 0) rfl rfl rfl rfl
theorem ldaAbs (a : Word) : Statement (.ldaAbs a) :=
  documented 0xAD (.ldaAbs 0) rfl rfl rfl rfl
theorem ldaAbx (a : Word) : Statement (.ldaAbx a) :=
  documented 0xBD (.ldaAbx 0) rfl rfl rfl rfl
theorem ldaAby (a : Word) : Statement (.ldaAby a) :=
  documented 0xB9 (.ldaAby 0) rfl rfl rfl rfl
theorem ldaIzx (z : Byte) : Statement (.ldaIzx z) :=
  documented 0xA1 (.ldaIzx 0) rfl rfl rfl rfl
theorem ldaIzy (z : Byte) : Statement (.ldaIzy z) :=
  documented 0xB1 (.ldaIzy 0) rfl rfl rfl rfl
theorem ldxImm (b : Byte) : Statement (.ldxImm b) :=
  documented 0xA2 (.ldxImm 0) rfl rfl rfl rfl
theorem ldxZp (z : Byte) : Statement (.ldxZp z) :=
  documented 0xA6 (.ldxZp 0) rfl rfl rfl rfl
theorem ldxZpy (z : Byte) : Statement (.ldxZpy z) :=
  documented 0xB6 (.ldxZpy 0) rfl rfl rfl rfl
theorem ldxAbs (a : Word) : Statement (.ldxAbs a) :=
  documented 0xAE (.ldxAbs 0) rfl rfl rfl rfl
theorem ldxAby (a : Word) : Statement (.ldxAby a) :=
  documented 0xBE (.ldxAby 0) rfl rfl rfl rfl
theorem ldyImm (b : Byte) : Statement (.ldyImm b) :=
  documented 0xA0 (.ldyImm 0) rfl rfl rfl rfl
theorem ldyZp (z : Byte) : Statement (.ldyZp z) :=
  documented 0xA4 (.ldyZp 0) rfl rfl rfl rfl
theorem ldyZpx (z : Byte) : Statement (.ldyZpx z) :=
  documented 0xB4 (.ldyZpx 0) rfl rfl rfl rfl
theorem ldyAbs (a : Word) : Statement (.ldyAbs a) :=
  documented 0xAC (.ldyAbs 0) rfl rfl rfl rfl
theorem ldyAbx (a : Word) : Statement (.ldyAbx a) :=
  documented 0xBC (.ldyAbx 0) rfl rfl rfl rfl
theorem staZp (z : Byte) : Statement (.staZp z) :=
  documented 0x85 (.staZp 0) rfl rfl rfl rfl
theorem staZpx (z : Byte) : Statement (.staZpx z) :=
  documented 0x95 (.staZpx 0) rfl rfl rfl rfl
theorem staAbs (a : Word) : Statement (.staAbs a) :=
  documented 0x8D (.staAbs 0) rfl rfl rfl rfl
theorem staAbx (a : Word) : Statement (.staAbx a) :=
  documented 0x9D (.staAbx 0) rfl rfl rfl rfl
theorem staAby (a : Word) : Statement (.staAby a) :=
  documented 0x99 (.staAby 0) rfl rfl rfl rfl
theorem staIzx (z : Byte) : Statement (.staIzx z) :=
  documented 0x81 (.staIzx 0) rfl rfl rfl rfl
theorem staIzy (z : Byte) : Statement (.staIzy z) :=
  documented 0x91 (.staIzy 0) rfl rfl rfl rfl
theorem stxZp (z : Byte) : Statement (.stxZp z) :=
  documented 0x86 (.stxZp 0) rfl rfl rfl rfl
theorem stxZpy (z : Byte) : Statement (.stxZpy z) :=
  documented 0x96 (.stxZpy 0) rfl rfl rfl rfl
theorem stxAbs (a : Word) : Statement (.stxAbs a) :=
  documented 0x8E (.stxAbs 0) rfl rfl rfl rfl
theorem styZp (z : Byte) : Statement (.styZp z) :=
  documented 0x84 (.styZp 0) rfl rfl rfl rfl
theorem styZpx (z : Byte) : Statement (.styZpx z) :=
  documented 0x94 (.styZpx 0) rfl rfl rfl rfl
theorem styAbs (a : Word) : Statement (.styAbs a) :=
  documented 0x8C (.styAbs 0) rfl rfl rfl rfl
theorem tax : Statement (.tax) :=
  documented 0xAA (.tax) rfl rfl rfl rfl
theorem tay : Statement (.tay) :=
  documented 0xA8 (.tay) rfl rfl rfl rfl
theorem txa : Statement (.txa) :=
  documented 0x8A (.txa) rfl rfl rfl rfl
theorem tya : Statement (.tya) :=
  documented 0x98 (.tya) rfl rfl rfl rfl
theorem tsx : Statement (.tsx) :=
  documented 0xBA (.tsx) rfl rfl rfl rfl
theorem txs : Statement (.txs) :=
  documented 0x9A (.txs) rfl rfl rfl rfl
theorem pha : Statement (.pha) :=
  documented 0x48 (.pha) rfl rfl rfl rfl
theorem php : Statement (.php) :=
  documented 0x08 (.php) rfl rfl rfl rfl
theorem pla : Statement (.pla) :=
  documented 0x68 (.pla) rfl rfl rfl rfl
theorem plp : Statement (.plp) :=
  documented 0x28 (.plp) rfl rfl rfl rfl
theorem adcImm (b : Byte) : Statement (.adcImm b) :=
  documented 0x69 (.adcImm 0) rfl rfl rfl rfl
theorem adcZp (z : Byte) : Statement (.adcZp z) :=
  documented 0x65 (.adcZp 0) rfl rfl rfl rfl
theorem adcZpx (z : Byte) : Statement (.adcZpx z) :=
  documented 0x75 (.adcZpx 0) rfl rfl rfl rfl
theorem adcAbs (a : Word) : Statement (.adcAbs a) :=
  documented 0x6D (.adcAbs 0) rfl rfl rfl rfl
theorem adcAbx (a : Word) : Statement (.adcAbx a) :=
  documented 0x7D (.adcAbx 0) rfl rfl rfl rfl
theorem adcAby (a : Word) : Statement (.adcAby a) :=
  documented 0x79 (.adcAby 0) rfl rfl rfl rfl
theorem adcIzx (z : Byte) : Statement (.adcIzx z) :=
  documented 0x61 (.adcIzx 0) rfl rfl rfl rfl
theorem adcIzy (z : Byte) : Statement (.adcIzy z) :=
  documented 0x71 (.adcIzy 0) rfl rfl rfl rfl
theorem sbcImm (b : Byte) : Statement (.sbcImm b) :=
  documented 0xE9 (.sbcImm 0) rfl rfl rfl rfl
theorem sbcZp (z : Byte) : Statement (.sbcZp z) :=
  documented 0xE5 (.sbcZp 0) rfl rfl rfl rfl
theorem sbcZpx (z : Byte) : Statement (.sbcZpx z) :=
  documented 0xF5 (.sbcZpx 0) rfl rfl rfl rfl
theorem sbcAbs (a : Word) : Statement (.sbcAbs a) :=
  documented 0xED (.sbcAbs 0) rfl rfl rfl rfl
theorem sbcAbx (a : Word) : Statement (.sbcAbx a) :=
  documented 0xFD (.sbcAbx 0) rfl rfl rfl rfl
theorem sbcAby (a : Word) : Statement (.sbcAby a) :=
  documented 0xF9 (.sbcAby 0) rfl rfl rfl rfl
theorem sbcIzx (z : Byte) : Statement (.sbcIzx z) :=
  documented 0xE1 (.sbcIzx 0) rfl rfl rfl rfl
theorem sbcIzy (z : Byte) : Statement (.sbcIzy z) :=
  documented 0xF1 (.sbcIzy 0) rfl rfl rfl rfl
theorem andImm (b : Byte) : Statement (.andImm b) :=
  documented 0x29 (.andImm 0) rfl rfl rfl rfl
theorem andZp (z : Byte) : Statement (.andZp z) :=
  documented 0x25 (.andZp 0) rfl rfl rfl rfl
theorem andZpx (z : Byte) : Statement (.andZpx z) :=
  documented 0x35 (.andZpx 0) rfl rfl rfl rfl
theorem andAbs (a : Word) : Statement (.andAbs a) :=
  documented 0x2D (.andAbs 0) rfl rfl rfl rfl
theorem andAbx (a : Word) : Statement (.andAbx a) :=
  documented 0x3D (.andAbx 0) rfl rfl rfl rfl
theorem andAby (a : Word) : Statement (.andAby a) :=
  documented 0x39 (.andAby 0) rfl rfl rfl rfl
theorem andIzx (z : Byte) : Statement (.andIzx z) :=
  documented 0x21 (.andIzx 0) rfl rfl rfl rfl
theorem andIzy (z : Byte) : Statement (.andIzy z) :=
  documented 0x31 (.andIzy 0) rfl rfl rfl rfl
theorem oraImm (b : Byte) : Statement (.oraImm b) :=
  documented 0x09 (.oraImm 0) rfl rfl rfl rfl
theorem oraZp (z : Byte) : Statement (.oraZp z) :=
  documented 0x05 (.oraZp 0) rfl rfl rfl rfl
theorem oraZpx (z : Byte) : Statement (.oraZpx z) :=
  documented 0x15 (.oraZpx 0) rfl rfl rfl rfl
theorem oraAbs (a : Word) : Statement (.oraAbs a) :=
  documented 0x0D (.oraAbs 0) rfl rfl rfl rfl
theorem oraAbx (a : Word) : Statement (.oraAbx a) :=
  documented 0x1D (.oraAbx 0) rfl rfl rfl rfl
theorem oraAby (a : Word) : Statement (.oraAby a) :=
  documented 0x19 (.oraAby 0) rfl rfl rfl rfl
theorem oraIzx (z : Byte) : Statement (.oraIzx z) :=
  documented 0x01 (.oraIzx 0) rfl rfl rfl rfl
theorem oraIzy (z : Byte) : Statement (.oraIzy z) :=
  documented 0x11 (.oraIzy 0) rfl rfl rfl rfl
theorem eorImm (b : Byte) : Statement (.eorImm b) :=
  documented 0x49 (.eorImm 0) rfl rfl rfl rfl
theorem eorZp (z : Byte) : Statement (.eorZp z) :=
  documented 0x45 (.eorZp 0) rfl rfl rfl rfl
theorem eorZpx (z : Byte) : Statement (.eorZpx z) :=
  documented 0x55 (.eorZpx 0) rfl rfl rfl rfl
theorem eorAbs (a : Word) : Statement (.eorAbs a) :=
  documented 0x4D (.eorAbs 0) rfl rfl rfl rfl
theorem eorAbx (a : Word) : Statement (.eorAbx a) :=
  documented 0x5D (.eorAbx 0) rfl rfl rfl rfl
theorem eorAby (a : Word) : Statement (.eorAby a) :=
  documented 0x59 (.eorAby 0) rfl rfl rfl rfl
theorem eorIzx (z : Byte) : Statement (.eorIzx z) :=
  documented 0x41 (.eorIzx 0) rfl rfl rfl rfl
theorem eorIzy (z : Byte) : Statement (.eorIzy z) :=
  documented 0x51 (.eorIzy 0) rfl rfl rfl rfl
theorem bitZp (z : Byte) : Statement (.bitZp z) :=
  documented 0x24 (.bitZp 0) rfl rfl rfl rfl
theorem bitAbs (a : Word) : Statement (.bitAbs a) :=
  documented 0x2C (.bitAbs 0) rfl rfl rfl rfl
theorem cmpImm (b : Byte) : Statement (.cmpImm b) :=
  documented 0xC9 (.cmpImm 0) rfl rfl rfl rfl
theorem cmpZp (z : Byte) : Statement (.cmpZp z) :=
  documented 0xC5 (.cmpZp 0) rfl rfl rfl rfl
theorem cmpZpx (z : Byte) : Statement (.cmpZpx z) :=
  documented 0xD5 (.cmpZpx 0) rfl rfl rfl rfl
theorem cmpAbs (a : Word) : Statement (.cmpAbs a) :=
  documented 0xCD (.cmpAbs 0) rfl rfl rfl rfl
theorem cmpAbx (a : Word) : Statement (.cmpAbx a) :=
  documented 0xDD (.cmpAbx 0) rfl rfl rfl rfl
theorem cmpAby (a : Word) : Statement (.cmpAby a) :=
  documented 0xD9 (.cmpAby 0) rfl rfl rfl rfl
theorem cmpIzx (z : Byte) : Statement (.cmpIzx z) :=
  documented 0xC1 (.cmpIzx 0) rfl rfl rfl rfl
theorem cmpIzy (z : Byte) : Statement (.cmpIzy z) :=
  documented 0xD1 (.cmpIzy 0) rfl rfl rfl rfl
theorem cpxImm (b : Byte) : Statement (.cpxImm b) :=
  documented 0xE0 (.cpxImm 0) rfl rfl rfl rfl
theorem cpxZp (z : Byte) : Statement (.cpxZp z) :=
  documented 0xE4 (.cpxZp 0) rfl rfl rfl rfl
theorem cpxAbs (a : Word) : Statement (.cpxAbs a) :=
  documented 0xEC (.cpxAbs 0) rfl rfl rfl rfl
theorem cpyImm (b : Byte) : Statement (.cpyImm b) :=
  documented 0xC0 (.cpyImm 0) rfl rfl rfl rfl
theorem cpyZp (z : Byte) : Statement (.cpyZp z) :=
  documented 0xC4 (.cpyZp 0) rfl rfl rfl rfl
theorem cpyAbs (a : Word) : Statement (.cpyAbs a) :=
  documented 0xCC (.cpyAbs 0) rfl rfl rfl rfl
theorem incZp (z : Byte) : Statement (.incZp z) :=
  documented 0xE6 (.incZp 0) rfl rfl rfl rfl
theorem incZpx (z : Byte) : Statement (.incZpx z) :=
  documented 0xF6 (.incZpx 0) rfl rfl rfl rfl
theorem incAbs (a : Word) : Statement (.incAbs a) :=
  documented 0xEE (.incAbs 0) rfl rfl rfl rfl
theorem incAbx (a : Word) : Statement (.incAbx a) :=
  documented 0xFE (.incAbx 0) rfl rfl rfl rfl
theorem decZp (z : Byte) : Statement (.decZp z) :=
  documented 0xC6 (.decZp 0) rfl rfl rfl rfl
theorem decZpx (z : Byte) : Statement (.decZpx z) :=
  documented 0xD6 (.decZpx 0) rfl rfl rfl rfl
theorem decAbs (a : Word) : Statement (.decAbs a) :=
  documented 0xCE (.decAbs 0) rfl rfl rfl rfl
theorem decAbx (a : Word) : Statement (.decAbx a) :=
  documented 0xDE (.decAbx 0) rfl rfl rfl rfl
theorem inx : Statement (.inx) :=
  documented 0xE8 (.inx) rfl rfl rfl rfl
theorem iny : Statement (.iny) :=
  documented 0xC8 (.iny) rfl rfl rfl rfl
theorem dex : Statement (.dex) :=
  documented 0xCA (.dex) rfl rfl rfl rfl
theorem dey : Statement (.dey) :=
  documented 0x88 (.dey) rfl rfl rfl rfl
theorem aslAcc : Statement (.aslAcc) :=
  documented 0x0A (.aslAcc) rfl rfl rfl rfl
theorem aslZp (z : Byte) : Statement (.aslZp z) :=
  documented 0x06 (.aslZp 0) rfl rfl rfl rfl
theorem aslZpx (z : Byte) : Statement (.aslZpx z) :=
  documented 0x16 (.aslZpx 0) rfl rfl rfl rfl
theorem aslAbs (a : Word) : Statement (.aslAbs a) :=
  documented 0x0E (.aslAbs 0) rfl rfl rfl rfl
theorem aslAbx (a : Word) : Statement (.aslAbx a) :=
  documented 0x1E (.aslAbx 0) rfl rfl rfl rfl
theorem lsrAcc : Statement (.lsrAcc) :=
  documented 0x4A (.lsrAcc) rfl rfl rfl rfl
theorem lsrZp (z : Byte) : Statement (.lsrZp z) :=
  documented 0x46 (.lsrZp 0) rfl rfl rfl rfl
theorem lsrZpx (z : Byte) : Statement (.lsrZpx z) :=
  documented 0x56 (.lsrZpx 0) rfl rfl rfl rfl
theorem lsrAbs (a : Word) : Statement (.lsrAbs a) :=
  documented 0x4E (.lsrAbs 0) rfl rfl rfl rfl
theorem lsrAbx (a : Word) : Statement (.lsrAbx a) :=
  documented 0x5E (.lsrAbx 0) rfl rfl rfl rfl
theorem rolAcc : Statement (.rolAcc) :=
  documented 0x2A (.rolAcc) rfl rfl rfl rfl
theorem rolZp (z : Byte) : Statement (.rolZp z) :=
  documented 0x26 (.rolZp 0) rfl rfl rfl rfl
theorem rolZpx (z : Byte) : Statement (.rolZpx z) :=
  documented 0x36 (.rolZpx 0) rfl rfl rfl rfl
theorem rolAbs (a : Word) : Statement (.rolAbs a) :=
  documented 0x2E (.rolAbs 0) rfl rfl rfl rfl
theorem rolAbx (a : Word) : Statement (.rolAbx a) :=
  documented 0x3E (.rolAbx 0) rfl rfl rfl rfl
theorem rorAcc : Statement (.rorAcc) :=
  documented 0x6A (.rorAcc) rfl rfl rfl rfl
theorem rorZp (z : Byte) : Statement (.rorZp z) :=
  documented 0x66 (.rorZp 0) rfl rfl rfl rfl
theorem rorZpx (z : Byte) : Statement (.rorZpx z) :=
  documented 0x76 (.rorZpx 0) rfl rfl rfl rfl
theorem rorAbs (a : Word) : Statement (.rorAbs a) :=
  documented 0x6E (.rorAbs 0) rfl rfl rfl rfl
theorem rorAbx (a : Word) : Statement (.rorAbx a) :=
  documented 0x7E (.rorAbx 0) rfl rfl rfl rfl
theorem jmpAbs (a : Word) : Statement (.jmpAbs a) :=
  documented 0x4C (.jmpAbs 0) rfl rfl rfl rfl
theorem jmpInd (p : Word) : Statement (.jmpInd p) :=
  documented 0x6C (.jmpInd 0) rfl rfl rfl rfl
theorem jsrAbs (a : Word) : Statement (.jsrAbs a) :=
  documented 0x20 (.jsrAbs 0) rfl rfl rfl rfl
theorem rts : Statement (.rts) :=
  documented 0x60 (.rts) rfl rfl rfl rfl
theorem rti : Statement (.rti) :=
  documented 0x40 (.rti) rfl rfl rfl rfl
theorem brk : Statement (.brk) :=
  documented 0x00 (.brk) rfl rfl rfl rfl
theorem bccRel (d : Byte) : Statement (.bccRel d) :=
  documented 0x90 (.bccRel 0) rfl rfl rfl rfl
theorem bcsRel (d : Byte) : Statement (.bcsRel d) :=
  documented 0xB0 (.bcsRel 0) rfl rfl rfl rfl
theorem beqRel (d : Byte) : Statement (.beqRel d) :=
  documented 0xF0 (.beqRel 0) rfl rfl rfl rfl
theorem bneRel (d : Byte) : Statement (.bneRel d) :=
  documented 0xD0 (.bneRel 0) rfl rfl rfl rfl
theorem bmiRel (d : Byte) : Statement (.bmiRel d) :=
  documented 0x30 (.bmiRel 0) rfl rfl rfl rfl
theorem bplRel (d : Byte) : Statement (.bplRel d) :=
  documented 0x10 (.bplRel 0) rfl rfl rfl rfl
theorem bvcRel (d : Byte) : Statement (.bvcRel d) :=
  documented 0x50 (.bvcRel 0) rfl rfl rfl rfl
theorem bvsRel (d : Byte) : Statement (.bvsRel d) :=
  documented 0x70 (.bvsRel 0) rfl rfl rfl rfl
theorem clc : Statement (.clc) :=
  documented 0x18 (.clc) rfl rfl rfl rfl
theorem sec : Statement (.sec) :=
  documented 0x38 (.sec) rfl rfl rfl rfl
theorem cli : Statement (.cli) :=
  documented 0x58 (.cli) rfl rfl rfl rfl
theorem sei : Statement (.sei) :=
  documented 0x78 (.sei) rfl rfl rfl rfl
theorem cld : Statement (.cld) :=
  documented 0xD8 (.cld) rfl rfl rfl rfl
theorem sed : Statement (.sed) :=
  documented 0xF8 (.sed) rfl rfl rfl rfl
theorem clv : Statement (.clv) :=
  documented 0xB8 (.clv) rfl rfl rfl rfl
theorem nop : Statement (.nop) :=
  documented 0xEA (.nop) rfl rfl rfl rfl

end Sys2Proof.Laws.OpcodeRow
end

