-- ==== Sys2Proof/Laws/Scroll.lean ====
section
/-! SUPPORT. Laws/Scroll.lean: the four updates of the scroll address (45_ppu.md R266 to R269), in numbers. -/

namespace Sys2Proof.Machine

/-- Flipping bit 10 of a scroll address. -/
theorem flip10_toNat (v : BitVec 15) :
    (v ^^^ 0x0400).toNat = v.toNat / 2048 * 2048 + (1 - v.toNat / 1024 % 2) * 1024 + v.toNat % 1024 := by
  have e : v ^^^ 0x0400 = putField v 10 1 (~~~field v 10 1) := flip_eq_putField v 10
  have f := field_toNat v 10 1
  have g : (~~~field v 10 1).toNat = 1 - (field v 10 1).toNat := BitVec.toNat_not
  rw [e, putField_toNat _ _ _ _ (by omega), g, f]
  omega

/-- `IncCoarseX`: the next tile, or tile 0 of the nametable beside it. -/
theorem incCoarseX_toNat (v : BitVec 15) : (incCoarseX v).toNat =
    if v.toNat % 32 = 31 then v.toNat / 2048 * 2048 + (1 - v.toNat / 1024 % 2) * 1024 + v.toNat / 32 % 32 * 32
    else v.toNat + 1 := by
  have h := field_toNat v 0 5
  rw [Nat.pow_zero, Nat.div_one] at h
  have c : (field v 0 5 = 31) ↔ v.toNat % 32 = 31 := by
    rw [← BitVec.toNat_inj, h]; exact Iff.rfl
  unfold incCoarseX
  by_cases hc : v.toNat % 32 = 31
  · have w : (putField v 0 5 0).toNat = v.toNat / 32 * 32 := by
      rw [putLow_toNat _ _ _ (by omega), Nat.mul_comm]; rfl
    rw [if_pos (c.2 hc), if_pos hc, flip10_toNat]
    generalize (putField v 0 5 0).toNat = u at w
    omega
  · rw [if_neg (fun e => hc (c.1 e)), if_neg hc, putLow_toNat _ _ _ (by omega), BitVec.toNat_add, h]
    show 32 * (v.toNat / 32) + (v.toNat % 32 + 1) % 32 = _
    omega

/-- Flipping bit 11 of a scroll address. -/
theorem flip11_toNat (v : BitVec 15) :
    (v ^^^ 0x0800).toNat = v.toNat / 4096 * 4096 + (1 - v.toNat / 2048 % 2) * 2048 + v.toNat % 2048 := by
  have e : v ^^^ 0x0800 = putField v 11 1 (~~~field v 11 1) := flip_eq_putField v 11
  have f := field_toNat v 11 1
  have g : (~~~field v 11 1).toNat = 1 - (field v 11 1).toNat := BitVec.toNat_not
  rw [e, putField_toNat _ _ _ _ (by omega), g, f]
  omega

/-- Putting coarse y. -/
theorem putCoarseY_toNat (v : BitVec 15) (f : BitVec 5) :
    (putField v 5 5 f).toNat = v.toNat / 1024 * 1024 + f.toNat * 32 + v.toNat % 32 := by
  rw [putField_toNat _ _ _ _ (by omega)]
  omega

/-- Putting fine y. -/
theorem putFineY_toNat (v : BitVec 15) (f : BitVec 3) :
    (putField v 12 3 f).toNat = f.toNat * 4096 + v.toNat % 4096 := by
  have l := v.isLt
  rw [putField_toNat _ _ _ _ (by omega)]
  omega

/-- `IncY`: the next row of the tile, else the first row of the tile below, which after row 29 is row 0 of the
nametable below and after row 31 is row 0 of the same one. -/
theorem incY_toNat (v : BitVec 15) : (incY v).toNat =
    if v.toNat / 4096 < 7 then v.toNat + 4096
    else if v.toNat / 32 % 32 = 29 then (1 - v.toNat / 2048 % 2) * 2048 + v.toNat / 1024 % 2 * 1024 + v.toNat % 32
    else v.toNat / 1024 % 4 * 1024 + (v.toNat / 32 % 32 + 1) % 32 * 32 + v.toNat % 32 := by
  have l := v.isLt
  have h := field_toNat v 12 3
  have h' : (field v 12 3).toNat = v.toNat / 4096 := by omega
  unfold incY
  rw [h']
  by_cases hc : v.toNat / 4096 < 7
  · rw [if_pos hc, if_pos hc, putFineY_toNat, BitVec.toNat_add, h']
    show (v.toNat / 4096 + 1) % 8 * 4096 + v.toNat % 4096 = _
    omega
  · rw [if_neg hc, if_neg hc]
    have w : (putField v 12 3 0).toNat = v.toNat % 4096 := by
      rw [putFineY_toNat]; show 0 * 4096 + _ = _; omega
    generalize putField v 12 3 0 = u at w
    have hy := field_toNat u 5 5
    have hy : (field u 5 5).toNat = v.toNat / 32 % 32 := by omega
    have c29 : (field u 5 5 = 29) ↔ v.toNat / 32 % 32 = 29 := by rw [← BitVec.toNat_inj, hy]; exact Iff.rfl
    have c31 : (field u 5 5 = 31) ↔ v.toNat / 32 % 32 = 31 := by rw [← BitVec.toNat_inj, hy]; exact Iff.rfl
    dsimp only
    have p0 : (putField u 5 5 0).toNat = v.toNat / 1024 % 4 * 1024 + v.toNat % 32 := by
      rw [putCoarseY_toNat, w]
      show v.toNat % 4096 / 1024 * 1024 + 0 * 32 + v.toNat % 4096 % 32 = _
      omega
    by_cases c1 : v.toNat / 32 % 32 = 29
    · rw [if_pos (c29.2 c1), if_pos c1, flip11_toNat, p0]
      omega
    · rw [if_neg (fun e => c1 (c29.1 e)), if_neg c1]
      by_cases c2 : v.toNat / 32 % 32 = 31
      · rw [if_pos (c31.2 c2), p0, c2]
        omega
      · rw [if_neg (fun e => c2 (c31.1 e)), putCoarseY_toNat, BitVec.toNat_add, hy, w]
        show v.toNat % 4096 / 1024 * 1024 + (v.toNat / 32 % 32 + 1) % 32 * 32 + v.toNat % 4096 % 32 = _
        have : v.toNat % 4096 / 1024 = v.toNat / 1024 % 4 := by omega
        have : v.toNat % 4096 % 32 = v.toNat % 32 := by omega
        rw [‹v.toNat % 4096 / 1024 = _›, ‹v.toNat % 4096 % 32 = _›]

/-- `CopyHoriz`: coarse x and the horizontal nametable bit of `t`. -/
theorem copyHoriz_toNat (t v : BitVec 15) : (copyHoriz t v).toNat =
    v.toNat / 2048 * 2048 + t.toNat / 1024 % 2 * 1024 + v.toNat / 32 % 32 * 32 + t.toNat % 32 := by
  have w := putLow_toNat v 5 (field t 0 5) (by omega)
  have f := field_toNat t 0 5
  have g := field_toNat t 10 1
  unfold copyHoriz
  generalize putField v 0 5 (field t 0 5) = u at w
  have p : (putField u 10 1 (field t 10 1)).toNat = u.toNat / 2048 * 2048 + (field t 10 1).toNat * 1024 + u.toNat % 1024 := by
    rw [putField_toNat _ _ _ _ (by omega)]; omega
  rw [p, g]
  generalize (field t 0 5).toNat = k at *
  clear p g
  omega

/-- `CopyVert`: fine y, the vertical nametable bit and coarse y of `t`. -/
theorem copyVert_toNat (t v : BitVec 15) : (copyVert t v).toNat =
    t.toNat / 2048 * 2048 + v.toNat / 1024 % 2 * 1024 + t.toNat / 32 % 32 * 32 + v.toNat % 32 := by
  have l := t.isLt
  have f := field_toNat t 5 5
  have g := field_toNat t 11 1
  have h := field_toNat t 12 3
  have w := putCoarseY_toNat v (field t 5 5)
  unfold copyVert
  rw [putFineY_toNat]
  generalize putField v 5 5 (field t 5 5) = u at w
  have p : (putField u 11 1 (field t 11 1)).toNat = u.toNat / 4096 * 4096 + (field t 11 1).toNat * 2048 + u.toNat % 2048 := by
    rw [putField_toNat _ _ _ _ (by omega)]; omega
  rw [p]
  generalize (field t 5 5).toNat = k1 at *
  generalize (field t 11 1).toNat = k2 at *
  generalize (field t 12 3).toNat = k3 at *
  have e1 : u.toNat % 2048 = v.toNat / 1024 % 2 * 1024 + k1 * 32 + v.toNat % 32 := by clear p; omega
  have e2 : (u.toNat / 4096 * 4096 + k2 * 2048 + u.toNat % 2048) % 4096 = k2 * 2048 + u.toNat % 2048 := by clear p w e1; omega
  rw [e2, e1]
  clear p w e1 e2
  omega

end Sys2Proof.Machine
end

