-- ==== Sys2Proof/Tests/Slice0.lean ====
section
/-! SUPPORT. Tests/Slice0.lean: tests of the model and witnesses for the statements. Expected values are those of
95_test_vectors.md (the vector is named) or are written out from the encoding tables of 30_encoding.md. -/

namespace Sys2Proof.Tests

open Sys2Proof Sys2Proof.Machine Sys2Proof.Claims

set_option Elab.async false

/-! ## Well-formedness: the one check, on terms it refuses and on terms it passes -/

theorem test_wf_refuses_documented_as_und : (Instr.und 0xEA).wf = false ∧ (Instr.und 0x00).wf = false := by decide
theorem test_wf_passes : (Instr.und 0x02).wf = true ∧ (Instr.und 0xFF).wf = true ∧ Instr.nop.wf = true := by decide

/-! ## Decoding: every row of the matrix 30_encoding.md R124, every column, with operand bytes 0x34 and 0x12 -/

theorem test_decode_row_0 : (List.range 16).map (fun k => decodeBytes (BitVec.ofNat 8 (0x00 + k)) 0x34 0x12) =
    [.brk, .oraIzx 0x34, .und 0x02, .und 0x03, .und 0x04, .oraZp 0x34,
     .aslZp 0x34, .und 0x07, .php, .oraImm 0x34, .aslAcc,
     .und 0x0B, .und 0x0C, .oraAbs 0x1234, .aslAbs 0x1234, .und 0x0F] := by decide +kernel

theorem test_decode_row_1 : (List.range 16).map (fun k => decodeBytes (BitVec.ofNat 8 (0x10 + k)) 0x34 0x12) =
    [.bplRel 0x34, .oraIzy 0x34, .und 0x12, .und 0x13, .und 0x14, .oraZpx 0x34,
     .aslZpx 0x34, .und 0x17, .clc, .oraAby 0x1234, .und 0x1A,
     .und 0x1B, .und 0x1C, .oraAbx 0x1234, .aslAbx 0x1234, .und 0x1F] := by decide +kernel

theorem test_decode_row_2 : (List.range 16).map (fun k => decodeBytes (BitVec.ofNat 8 (0x20 + k)) 0x34 0x12) =
    [.jsrAbs 0x1234, .andIzx 0x34, .und 0x22, .und 0x23, .bitZp 0x34, .andZp 0x34,
     .rolZp 0x34, .und 0x27, .plp, .andImm 0x34, .rolAcc,
     .und 0x2B, .bitAbs 0x1234, .andAbs 0x1234, .rolAbs 0x1234, .und 0x2F] := by decide +kernel

theorem test_decode_row_3 : (List.range 16).map (fun k => decodeBytes (BitVec.ofNat 8 (0x30 + k)) 0x34 0x12) =
    [.bmiRel 0x34, .andIzy 0x34, .und 0x32, .und 0x33, .und 0x34, .andZpx 0x34,
     .rolZpx 0x34, .und 0x37, .sec, .andAby 0x1234, .und 0x3A,
     .und 0x3B, .und 0x3C, .andAbx 0x1234, .rolAbx 0x1234, .und 0x3F] := by decide +kernel

theorem test_decode_row_4 : (List.range 16).map (fun k => decodeBytes (BitVec.ofNat 8 (0x40 + k)) 0x34 0x12) =
    [.rti, .eorIzx 0x34, .und 0x42, .und 0x43, .und 0x44, .eorZp 0x34,
     .lsrZp 0x34, .und 0x47, .pha, .eorImm 0x34, .lsrAcc,
     .und 0x4B, .jmpAbs 0x1234, .eorAbs 0x1234, .lsrAbs 0x1234, .und 0x4F] := by decide +kernel

theorem test_decode_row_5 : (List.range 16).map (fun k => decodeBytes (BitVec.ofNat 8 (0x50 + k)) 0x34 0x12) =
    [.bvcRel 0x34, .eorIzy 0x34, .und 0x52, .und 0x53, .und 0x54, .eorZpx 0x34,
     .lsrZpx 0x34, .und 0x57, .cli, .eorAby 0x1234, .und 0x5A,
     .und 0x5B, .und 0x5C, .eorAbx 0x1234, .lsrAbx 0x1234, .und 0x5F] := by decide +kernel

theorem test_decode_row_6 : (List.range 16).map (fun k => decodeBytes (BitVec.ofNat 8 (0x60 + k)) 0x34 0x12) =
    [.rts, .adcIzx 0x34, .und 0x62, .und 0x63, .und 0x64, .adcZp 0x34,
     .rorZp 0x34, .und 0x67, .pla, .adcImm 0x34, .rorAcc,
     .und 0x6B, .jmpInd 0x1234, .adcAbs 0x1234, .rorAbs 0x1234, .und 0x6F] := by decide +kernel

theorem test_decode_row_7 : (List.range 16).map (fun k => decodeBytes (BitVec.ofNat 8 (0x70 + k)) 0x34 0x12) =
    [.bvsRel 0x34, .adcIzy 0x34, .und 0x72, .und 0x73, .und 0x74, .adcZpx 0x34,
     .rorZpx 0x34, .und 0x77, .sei, .adcAby 0x1234, .und 0x7A,
     .und 0x7B, .und 0x7C, .adcAbx 0x1234, .rorAbx 0x1234, .und 0x7F] := by decide +kernel

theorem test_decode_row_8 : (List.range 16).map (fun k => decodeBytes (BitVec.ofNat 8 (0x80 + k)) 0x34 0x12) =
    [.und 0x80, .staIzx 0x34, .und 0x82, .und 0x83, .styZp 0x34, .staZp 0x34,
     .stxZp 0x34, .und 0x87, .dey, .und 0x89, .txa,
     .und 0x8B, .styAbs 0x1234, .staAbs 0x1234, .stxAbs 0x1234, .und 0x8F] := by decide +kernel

theorem test_decode_row_9 : (List.range 16).map (fun k => decodeBytes (BitVec.ofNat 8 (0x90 + k)) 0x34 0x12) =
    [.bccRel 0x34, .staIzy 0x34, .und 0x92, .und 0x93, .styZpx 0x34, .staZpx 0x34,
     .stxZpy 0x34, .und 0x97, .tya, .staAby 0x1234, .txs,
     .und 0x9B, .und 0x9C, .staAbx 0x1234, .und 0x9E, .und 0x9F] := by decide +kernel

theorem test_decode_row_A : (List.range 16).map (fun k => decodeBytes (BitVec.ofNat 8 (0xA0 + k)) 0x34 0x12) =
    [.ldyImm 0x34, .ldaIzx 0x34, .ldxImm 0x34, .und 0xA3, .ldyZp 0x34, .ldaZp 0x34,
     .ldxZp 0x34, .und 0xA7, .tay, .ldaImm 0x34, .tax,
     .und 0xAB, .ldyAbs 0x1234, .ldaAbs 0x1234, .ldxAbs 0x1234, .und 0xAF] := by decide +kernel

theorem test_decode_row_B : (List.range 16).map (fun k => decodeBytes (BitVec.ofNat 8 (0xB0 + k)) 0x34 0x12) =
    [.bcsRel 0x34, .ldaIzy 0x34, .und 0xB2, .und 0xB3, .ldyZpx 0x34, .ldaZpx 0x34,
     .ldxZpy 0x34, .und 0xB7, .clv, .ldaAby 0x1234, .tsx,
     .und 0xBB, .ldyAbx 0x1234, .ldaAbx 0x1234, .ldxAby 0x1234, .und 0xBF] := by decide +kernel

theorem test_decode_row_C : (List.range 16).map (fun k => decodeBytes (BitVec.ofNat 8 (0xC0 + k)) 0x34 0x12) =
    [.cpyImm 0x34, .cmpIzx 0x34, .und 0xC2, .und 0xC3, .cpyZp 0x34, .cmpZp 0x34,
     .decZp 0x34, .und 0xC7, .iny, .cmpImm 0x34, .dex,
     .und 0xCB, .cpyAbs 0x1234, .cmpAbs 0x1234, .decAbs 0x1234, .und 0xCF] := by decide +kernel

theorem test_decode_row_D : (List.range 16).map (fun k => decodeBytes (BitVec.ofNat 8 (0xD0 + k)) 0x34 0x12) =
    [.bneRel 0x34, .cmpIzy 0x34, .und 0xD2, .und 0xD3, .und 0xD4, .cmpZpx 0x34,
     .decZpx 0x34, .und 0xD7, .cld, .cmpAby 0x1234, .und 0xDA,
     .und 0xDB, .und 0xDC, .cmpAbx 0x1234, .decAbx 0x1234, .und 0xDF] := by decide +kernel

theorem test_decode_row_E : (List.range 16).map (fun k => decodeBytes (BitVec.ofNat 8 (0xE0 + k)) 0x34 0x12) =
    [.cpxImm 0x34, .sbcIzx 0x34, .und 0xE2, .und 0xE3, .cpxZp 0x34, .sbcZp 0x34,
     .incZp 0x34, .und 0xE7, .inx, .sbcImm 0x34, .nop,
     .und 0xEB, .cpxAbs 0x1234, .sbcAbs 0x1234, .incAbs 0x1234, .und 0xEF] := by decide +kernel

theorem test_decode_row_F : (List.range 16).map (fun k => decodeBytes (BitVec.ofNat 8 (0xF0 + k)) 0x34 0x12) =
    [.beqRel 0x34, .sbcIzy 0x34, .und 0xF2, .und 0xF3, .und 0xF4, .sbcZpx 0x34,
     .incZpx 0x34, .und 0xF7, .sed, .sbcAby 0x1234, .und 0xFA,
     .und 0xFB, .und 0xFC, .sbcAbx 0x1234, .incAbx 0x1234, .und 0xFF] := by decide +kernel

/-! ## Truncated and odd byte lists -/

theorem test_decode_truncated : decode [0xAD, 0x34] = .error (.truncated 0xAD) ∧ decode [0xA9] = .error (.truncated 0xA9) ∧
    decode [] = .error .noOpcode := ⟨rfl, rfl, rfl⟩
theorem test_decode_takes_its_bytes : decode [0xEA, 0x01, 0x02] = .ok (.nop, [0x01, 0x02]) ∧
    decode [0xA7, 0x10] = .ok (.und 0xA7, [0x10]) := ⟨rfl, rfl⟩
theorem test_table_word : decodeTableWord 24 0x1234AD = some (.ldaAbs 0x1234) ∧ decodeTableWord 8 0xA9 = some (.ldaImm 0) ∧
    decodeTableWord 16 0xFBD0 = some (.bneRel 0xFB) := by decide +kernel

/-! ## One instruction each

`start` is the reset state with some bytes of work RAM, A, X, Y and C given and PC past the instruction. -/

def start (ram : Memory 8) (a x y : Byte) (c : Bool) (pc : Word := 0x8002) : State :=
  { State.reset with ram := ram, cpu := { State.reset.cpu with a := a, x := x, y := y, pc := pc, flags := { resetFlags with c := c } } }

def run1 (i : Instr) (s : State) : State :=
  match exec i s with
  | .next t => t
  | .fault _ => s
  | .refused _ => s

/-- A, X, Y, SP, PC. -/
def regs (s : State) : List Nat := [s.cpu.a.toNat, s.cpu.x.toNat, s.cpu.y.toNat, s.cpu.sp.toNat, s.cpu.pc.toNat]

/-- C, Z, V, N. -/
def czvn (s : State) : List Nat :=
  [s.cpu.flags.c.toNat, s.cpu.flags.z.toNat, s.cpu.flags.v.toNat, s.cpu.flags.n.toNat]

/-- The cycles the instruction took. -/
def cycles (s : State) : Nat := s.cpu.wait + 1

/-- LS1 -/
theorem test_lda_imm : let t := run1 (.ldaImm 0) (start [] 0x00 0x00 0x00 false);
    regs t = [0x00, 0x00, 0x00, 0xFD, 0x8002] ∧ czvn t = [0, 1, 0, 0] ∧ cycles t = 2 := by decide +kernel

/-- LS3 -/
theorem test_lda_zpx_wraps : let t := run1 (.ldaZpx 0x80) (start [(0x7F, 0x55)] 0x00 0xFF 0x00 false);
    regs t = [0x55, 0xFF, 0x00, 0xFD, 0x8002] ∧ czvn t = [0, 0, 0, 0] ∧ cycles t = 4 := by decide +kernel

/-- LS4 -/
theorem test_lda_abx_crosses : let t := run1 (.ldaAbx 0x00FF) (start [(0x100, 0x77)] 0x00 0x01 0x00 false);
    regs t = [0x77, 0x01, 0x00, 0xFD, 0x8002] ∧ cycles t = 5 := by decide +kernel

/-- LS5 -/
theorem test_lda_abx_same_page : let t := run1 (.ldaAbx 0x00F0) (start [(0xF1, 0x66)] 0x00 0x01 0x00 false);
    regs t = [0x66, 0x01, 0x00, 0xFD, 0x8002] ∧ cycles t = 4 := by decide +kernel

/-- LS6 -/
theorem test_lda_izy_pointer_wraps : let t := run1 (.ldaIzy 0xFF) (start [(0x00, 0x02), (0xFF, 0xF8), (0x308, 0x99)] 0x00 0x00 0x10 false);
    regs t = [0x99, 0x00, 0x10, 0xFD, 0x8002] ∧ czvn t = [0, 0, 0, 1] ∧ cycles t = 6 := by decide +kernel

/-- LS7 -/
theorem test_lda_izx_pointer_wraps : let t := run1 (.ldaIzx 0xFA) (start [(0x00, 0x02), (0xFF, 0x34), (0x234, 0x42)] 0x00 0x05 0x00 false);
    regs t = [0x42, 0x05, 0x00, 0xFD, 0x8002] ∧ cycles t = 6 := by decide +kernel

/-- LS8 -/
theorem test_sta_aby : let t := run1 (.staAby 0x02FF) (start [] 0xAB 0x00 0xFF false);
    regs t = [0xAB, 0x00, 0xFF, 0xFD, 0x8002] ∧ cycles t = 5 ∧ t.ram = [(0x3FE, 0xAB)] := by decide +kernel

/-- LS9 -/
theorem test_stx_zpy : let t := run1 (.stxZpy 0xFF) (start [] 0x00 0x3C 0x02 false);
    cycles t = 4 ∧ t.ram = [(0x01, 0x3C)] := by decide +kernel

/-- STY, R175 -/
theorem test_sty_abs : let t := run1 (.styAbs 0x0810) (start [] 0x00 0x00 0x5A false);
    cycles t = 4 ∧ t.ram = [(0x10, 0x5A)] := by decide +kernel

/-- LS10 -/
theorem test_ldx_zpy : let t := run1 (.ldxZpy 0x10) (start [(0x13, 0x80)] 0x00 0x00 0x03 false);
    regs t = [0x00, 0x80, 0x03, 0xFD, 0x8002] ∧ czvn t = [0, 0, 0, 1] ∧ cycles t = 4 := by decide +kernel

/-- LDY, R172 -/
theorem test_ldy_abx : let t := run1 (.ldyAbx 0x0010) (start [(0x13, 0x80)] 0x00 0x03 0x00 false);
    regs t = [0x00, 0x03, 0x80, 0xFD, 0x8002] ∧ czvn t = [0, 0, 0, 1] ∧ cycles t = 4 := by decide +kernel

/-- LS11 -/
theorem test_tax : let t := run1 (.tax) (start [] 0x80 0x00 0x00 false);
    regs t = [0x80, 0x80, 0x00, 0xFD, 0x8002] ∧ czvn t = [0, 0, 0, 1] ∧ cycles t = 2 := by decide +kernel

/-- TAY, R177 -/
theorem test_tay : let t := run1 (.tay) (start [] 0x80 0x01 0x00 false);
    regs t = [0x80, 0x01, 0x80, 0xFD, 0x8002] ∧ czvn t = [0, 0, 0, 1] ∧ cycles t = 2 := by decide +kernel

/-- LS12 -/
theorem test_txa : let t := run1 (.txa) (start [] 0x55 0x00 0x00 false);
    regs t = [0x00, 0x00, 0x00, 0xFD, 0x8002] ∧ czvn t = [0, 1, 0, 0] ∧ cycles t = 2 := by decide +kernel

/-- TYA, R179 -/
theorem test_tya : let t := run1 (.tya) (start [] 0x55 0x02 0x07 false);
    regs t = [0x07, 0x02, 0x07, 0xFD, 0x8002] ∧ czvn t = [0, 0, 0, 0] ∧ cycles t = 2 := by decide +kernel

/-- LS13 -/
theorem test_tsx : let t := run1 (.tsx) (start [] 0x00 0x00 0x00 false);
    regs t = [0x00, 0xFD, 0x00, 0xFD, 0x8002] ∧ czvn t = [0, 0, 0, 1] ∧ cycles t = 2 := by decide +kernel

/-- LS14 -/
theorem test_txs_no_flags : let t := run1 (.txs) (start [] 0x00 0x00 0x00 false);
    regs t = [0x00, 0x00, 0x00, 0x00, 0x8002] ∧ czvn t = [0, 0, 0, 0] ∧ cycles t = 2 := by decide +kernel

/-- LS15 -/
theorem test_php : let t := run1 (.php) (start [] 0x00 0x00 0x00 false);
    regs t = [0x00, 0x00, 0x00, 0xFC, 0x8002] ∧ cycles t = 3 ∧ t.ram = [(0x1FD, 0x34)] := by decide +kernel

/-- LS17 -/
theorem test_pha_wraps : let t := run1 (.pha) (start [] 0x7E 0x00 0x00 false);
    regs t = [0x7E, 0x00, 0x00, 0xFC, 0x8002] ∧ cycles t = 3 ∧ t.ram = [(0x1FD, 0x7E)] := by decide +kernel

/-- LS18, from SP = FD -/
theorem test_pla : let t := run1 (.pla) (start [(0x1FE, 0x80)] 0x01 0x00 0x00 false);
    regs t = [0x80, 0x00, 0x00, 0xFE, 0x8002] ∧ czvn t = [0, 0, 0, 1] ∧ cycles t = 4 := by decide +kernel

/-- LS19, from SP = FD -/
theorem test_plp_all : let t := run1 (.plp) (start [(0x1FE, 0xFF)] 0x00 0x00 0x00 false);
    regs t = [0x00, 0x00, 0x00, 0xFE, 0x8002] ∧ czvn t = [1, 1, 1, 1] ∧ cycles t = 4 ∧ t.cpu.flags.d = true := by decide +kernel

/-- AL1 -/
theorem test_adc_overflow : let t := run1 (.adcImm 0x01) (start [] 0x7F 0x00 0x00 false);
    regs t = [0x80, 0x00, 0x00, 0xFD, 0x8002] ∧ czvn t = [0, 0, 1, 1] ∧ cycles t = 2 := by decide +kernel

/-- AL4 -/
theorem test_adc_carry_in : let t := run1 (.adcImm 0xFF) (start [] 0xFF 0x00 0x00 true);
    regs t = [0xFF, 0x00, 0x00, 0xFD, 0x8002] ∧ czvn t = [1, 0, 0, 1] := by decide +kernel

/-- AL7 -/
theorem test_sbc_overflow : let t := run1 (.sbcImm 0x01) (start [] 0x80 0x00 0x00 true);
    regs t = [0x7F, 0x00, 0x00, 0xFD, 0x8002] ∧ czvn t = [1, 0, 1, 0] ∧ cycles t = 2 := by decide +kernel

/-- AL8 -/
theorem test_sbc_borrow_in : let t := run1 (.sbcImm 0x00) (start [] 0x00 0x00 0x00 false);
    regs t = [0xFF, 0x00, 0x00, 0xFD, 0x8002] ∧ czvn t = [0, 0, 0, 1] := by decide +kernel

/-- AL11 -/
theorem test_and : let t := run1 (.andImm 0x0F) (start [] 0xF0 0x00 0x00 false);
    regs t = [0x00, 0x00, 0x00, 0xFD, 0x8002] ∧ czvn t = [0, 1, 0, 0] := by decide +kernel

/-- AL12 -/
theorem test_ora : let t := run1 (.oraImm 0x80) (start [] 0x01 0x00 0x00 false);
    regs t = [0x81, 0x00, 0x00, 0xFD, 0x8002] ∧ czvn t = [0, 0, 0, 1] := by decide +kernel

/-- AL13 -/
theorem test_eor : let t := run1 (.eorImm 0xFF) (start [] 0xFF 0x00 0x00 false);
    regs t = [0x00, 0x00, 0x00, 0xFD, 0x8002] ∧ czvn t = [0, 1, 0, 0] := by decide +kernel

/-- AL14 -/
theorem test_cmp_equal : let t := run1 (.cmpImm 0x10) (start [] 0x10 0x00 0x00 false);
    regs t = [0x10, 0x00, 0x00, 0xFD, 0x8002] ∧ czvn t = [1, 1, 0, 0] := by decide +kernel

/-- AL15 -/
theorem test_cmp_less : let t := run1 (.cmpImm 0x11) (start [] 0x10 0x00 0x00 false);
    regs t = [0x10, 0x00, 0x00, 0xFD, 0x8002] ∧ czvn t = [0, 0, 0, 1] := by decide +kernel

/-- AL17 -/
theorem test_cpx : let t := run1 (.cpxImm 0x00) (start [] 0x00 0xFF 0x00 false);
    regs t = [0x00, 0xFF, 0x00, 0xFD, 0x8002] ∧ czvn t = [1, 0, 0, 1] := by decide +kernel

/-- AL18 -/
theorem test_cpy : let t := run1 (.cpyImm 0x7F) (start [] 0x00 0x00 0x80 false);
    regs t = [0x00, 0x00, 0x80, 0xFD, 0x8002] ∧ czvn t = [1, 0, 0, 0] := by decide +kernel

/-- AL19 -/
theorem test_bit : let t := run1 (.bitZp 0x10) (start [(0x10, 0xC0)] 0x01 0x00 0x00 false);
    regs t = [0x01, 0x00, 0x00, 0xFD, 0x8002] ∧ czvn t = [0, 1, 1, 1] ∧ cycles t = 3 := by decide +kernel

/-- AL20 -/
theorem test_bit_clear : let t := run1 (.bitZp 0x10) (start [(0x10, 0x3F)] 0xFF 0x00 0x00 false);
    regs t = [0xFF, 0x00, 0x00, 0xFD, 0x8002] ∧ czvn t = [0, 0, 0, 0] := by decide +kernel

/-- AL21 -/
theorem test_inc_wraps : let t := run1 (.incZp 0x10) (start [(0x10, 0xFF)] 0x00 0x00 0x00 false);
    czvn t = [0, 1, 0, 0] ∧ cycles t = 5 ∧ t.ram = [] := by decide +kernel

/-- AL22 -/
theorem test_inc_no_v : let t := run1 (.incZp 0x10) (start [(0x10, 0x7F)] 0x00 0x00 0x00 false);
    czvn t = [0, 0, 0, 1] ∧ t.ram = [(0x10, 0x80)] := by decide +kernel

/-- AL23 -/
theorem test_dec_wraps : let t := run1 (.decZp 0x10) (start [] 0x00 0x00 0x00 false);
    czvn t = [0, 0, 0, 1] ∧ cycles t = 5 ∧ t.ram = [(0x10, 0xFF)] := by decide +kernel

/-- AL24 -/
theorem test_dec_abx : let t := run1 (.decAbx 0x00FF) (start [(0x100, 0x01)] 0x00 0x01 0x00 false);
    czvn t = [0, 1, 0, 0] ∧ cycles t = 7 ∧ t.ram = [] := by decide +kernel

/-- AL25 -/
theorem test_inx : let t := run1 (.inx) (start [] 0x00 0xFF 0x00 false);
    regs t = [0x00, 0x00, 0x00, 0xFD, 0x8002] ∧ czvn t = [0, 1, 0, 0] := by decide +kernel

/-- AL26 -/
theorem test_iny : let t := run1 (.iny) (start [] 0x00 0x00 0x7F false);
    regs t = [0x00, 0x00, 0x80, 0xFD, 0x8002] ∧ czvn t = [0, 0, 0, 1] := by decide +kernel

/-- AL27 -/
theorem test_dex : let t := run1 (.dex) (start [] 0x00 0x01 0x00 false);
    regs t = [0x00, 0x00, 0x00, 0xFD, 0x8002] ∧ czvn t = [0, 1, 0, 0] := by decide +kernel

/-- AL28 -/
theorem test_dey : let t := run1 (.dey) (start [] 0x00 0x00 0x00 false);
    regs t = [0x00, 0x00, 0xFF, 0xFD, 0x8002] ∧ czvn t = [0, 0, 0, 1] := by decide +kernel

/-- AL29 -/
theorem test_asl : let t := run1 (.aslAcc) (start [] 0x80 0x00 0x00 false);
    regs t = [0x00, 0x00, 0x00, 0xFD, 0x8002] ∧ czvn t = [1, 1, 0, 0] := by decide +kernel

/-- AL30 -/
theorem test_asl_no_carry_in : let t := run1 (.aslAcc) (start [] 0x40 0x00 0x00 true);
    regs t = [0x80, 0x00, 0x00, 0xFD, 0x8002] ∧ czvn t = [0, 0, 0, 1] := by decide +kernel

/-- AL31 -/
theorem test_lsr : let t := run1 (.lsrAcc) (start [] 0x01 0x00 0x00 false);
    regs t = [0x00, 0x00, 0x00, 0xFD, 0x8002] ∧ czvn t = [1, 1, 0, 0] := by decide +kernel

/-- AL32 -/
theorem test_lsr_no_carry_in : let t := run1 (.lsrAcc) (start [] 0x80 0x00 0x00 true);
    regs t = [0x40, 0x00, 0x00, 0xFD, 0x8002] ∧ czvn t = [0, 0, 0, 0] := by decide +kernel

/-- AL33 -/
theorem test_rol : let t := run1 (.rolAcc) (start [] 0x80 0x00 0x00 true);
    regs t = [0x01, 0x00, 0x00, 0xFD, 0x8002] ∧ czvn t = [1, 0, 0, 0] := by decide +kernel

/-- AL36 -/
theorem test_ror : let t := run1 (.rorAcc) (start [] 0x00 0x00 0x00 true);
    regs t = [0x80, 0x00, 0x00, 0xFD, 0x8002] ∧ czvn t = [0, 0, 0, 1] := by decide +kernel

/-- AL37 -/
theorem test_asl_memory : let t := run1 (.aslZp 0x10) (start [(0x10, 0x81)] 0x00 0x00 0x00 false);
    regs t = [0x00, 0x00, 0x00, 0xFD, 0x8002] ∧ czvn t = [1, 0, 0, 0] ∧ cycles t = 5 ∧ t.ram = [(0x10, 0x02)] := by decide +kernel

/-- AL38 -/
theorem test_ror_memory : let t := run1 (.rorAbx 0x0010) (start [(0x10, 0x01)] 0x00 0x00 0x00 true);
    czvn t = [1, 0, 0, 1] ∧ cycles t = 7 ∧ t.ram = [(0x10, 0x80)] := by decide +kernel

/-- CT1 -/
theorem test_jmp_abs : let t := run1 (.jmpAbs 0x1234) (start [] 0x00 0x00 0x00 false);
    regs t = [0x00, 0x00, 0x00, 0xFD, 0x1234] ∧ cycles t = 3 := by decide +kernel

/-- CT2 -/
theorem test_jmp_ind_page_wrap : let t := run1 (.jmpInd 0x02FF) (start [(0x200, 0x03), (0x300, 0x04)] 0x00 0x00 0x00 false);
    regs t = [0x00, 0x00, 0x00, 0xFD, 0x300] ∧ cycles t = 5 := by decide +kernel

/-- CT4 -/
theorem test_jsr : let t := run1 (.jsrAbs 0x9000) (start [] 0x00 0x00 0x00 false 0x8003);
    regs t = [0x00, 0x00, 0x00, 0xFB, 0x9000] ∧ cycles t = 6 ∧ t.ram = [(0x1FC, 0x02), (0x1FD, 0x80)] := by decide +kernel

/-- RTS, R218 -/
theorem test_rts : let t := run1 (.rts) (start [(0x1FE, 0x02), (0x1FF, 0x80)] 0x00 0x00 0x00 false);
    regs t = [0x00, 0x00, 0x00, 0xFF, 0x8003] ∧ cycles t = 6 := by decide +kernel

/-- CT6, from SP = FD -/
theorem test_rts_wraps : let t := run1 (.rts) (start [(0x1FE, 0xFF), (0x1FF, 0xFF)] 0x00 0x00 0x00 false);
    regs t = [0x00, 0x00, 0x00, 0xFF, 0x00] := by decide +kernel

/-- R219: no adjustment, from SP = FD -/
theorem test_rti : let t := run1 (.rti) (start [(0x100, 0x12), (0x1FE, 0xC3), (0x1FF, 0x34)] 0x00 0x00 0x00 false);
    regs t = [0x00, 0x00, 0x00, 0x00, 0x1234] ∧ czvn t = [1, 1, 1, 1] ∧ cycles t = 6 ∧ t.cpu.flags.i = false := by decide +kernel

/-- R220, R410 (the vector of the blank cartridge is 0) -/
theorem test_brk : let t := run1 (.brk) (start [] 0x00 0x00 0x00 false 0x8001);
    regs t = [0x00, 0x00, 0x00, 0xFA, 0x00] ∧ cycles t = 7 ∧ t.ram = [(0x1FB, 0x34), (0x1FC, 0x02), (0x1FD, 0x80)] := by decide +kernel

/-- R221, R222 -/
theorem test_bcc_taken : let t := run1 (.bccRel 0x02) (start [] 0x00 0x00 0x00 false);
    regs t = [0x00, 0x00, 0x00, 0xFD, 0x8004] ∧ cycles t = 3 := by decide +kernel

/-- R221, R223 -/
theorem test_bcs_not_taken : let t := run1 (.bcsRel 0x02) (start [] 0x00 0x00 0x00 false);
    regs t = [0x00, 0x00, 0x00, 0xFD, 0x8002] ∧ cycles t = 2 := by decide +kernel

/-- R224 -/
theorem test_beq_not_taken : let t := run1 (.beqRel 0x02) (start [] 0x00 0x00 0x00 false);
    regs t = [0x00, 0x00, 0x00, 0xFD, 0x8002] ∧ cycles t = 2 := by decide +kernel

/-- R225: back across the page -/
theorem test_bne_page_cross : let t := run1 (.bneRel 0xFD) (start [] 0x00 0x00 0x00 false);
    regs t = [0x00, 0x00, 0x00, 0xFD, 0x7FFF] ∧ cycles t = 4 := by decide +kernel

/-- R226 -/
theorem test_bmi_not_taken : let t := run1 (.bmiRel 0x7F) (start [] 0x00 0x00 0x00 false);
    regs t = [0x00, 0x00, 0x00, 0xFD, 0x8002] ∧ cycles t = 2 := by decide +kernel

/-- R227 -/
theorem test_bpl_furthest : let t := run1 (.bplRel 0x7F) (start [] 0x00 0x00 0x00 false);
    regs t = [0x00, 0x00, 0x00, 0xFD, 0x8081] ∧ cycles t = 3 := by decide +kernel

/-- R228 -/
theorem test_bvc_furthest_back : let t := run1 (.bvcRel 0x80) (start [] 0x00 0x00 0x00 false);
    regs t = [0x00, 0x00, 0x00, 0xFD, 0x7F82] ∧ cycles t = 4 := by decide +kernel

/-- R229 -/
theorem test_bvs_not_taken : let t := run1 (.bvsRel 0x80) (start [] 0x00 0x00 0x00 false);
    regs t = [0x00, 0x00, 0x00, 0xFD, 0x8002] ∧ cycles t = 2 := by decide +kernel

/-- R230 to R236. -/
theorem test_flag_instructions : (run1 .sec (start [] 0 0 0 false)).cpu.flags.c = true ∧
    (run1 .clc (start [] 0 0 0 true)).cpu.flags.c = false ∧ (run1 .cli (start [] 0 0 0 false)).cpu.flags.i = false ∧
    (run1 .sei (run1 .cli (start [] 0 0 0 false))).cpu.flags.i = true ∧ (run1 .sed (start [] 0 0 0 false)).cpu.flags.d = true ∧
    (run1 .cld (run1 .sed (start [] 0 0 0 false))).cpu.flags.d = false ∧
    (run1 .clv (run1 (.adcImm 0x01) (start [] 0x7F 0 0 false))).cpu.flags.v = false := by decide +kernel

/-- UN1 to UN4, R237. -/
theorem test_no_operations : (let t := run1 (.und 0xA7) (start [] 1 2 3 true); regs t = [1, 2, 3, 0xFD, 0x8002] ∧ cycles t = 2 ∧
    t.undSeen = true) ∧ (let t := run1 .nop (start [] 1 2 3 true); regs t = [1, 2, 3, 0xFD, 0x8002] ∧ cycles t = 2 ∧
    t.undSeen = false) := by decide +kernel

/-! ## The units -/

def writes (l : List (Word × Byte)) (s : State) : State := writesOf l s
def verticalCart : State := { State.reset with cfg := { blankConfig with cart := { blankCart with mirroring := .vertical } } }

/-- T2. -/
theorem test_picture_address_pair : let t := writes [(0x2006, 0x21), (0x2006, 0x08), (0x2007, 0x5A)] verticalCart;
    t.ppu.t = 0x2108 ∧ t.ppu.v = 0x2109 ∧ t.ppu.w = false ∧ t.vram = [(0x108, 0x5A)] := by decide +kernel

/-- PR6 to PR8. -/
theorem test_scroll : let t := writes [(0x2000, 0x03), (0x2005, 0x7D), (0x2005, 0x5E)] State.reset;
    t.ppu.t = 0x6D6F ∧ t.ppu.x = 5 ∧ t.ppu.w = false := by decide +kernel

/-- PR11, PR12. -/
theorem test_scroll_steps : [0x001F, 0x041F, 0x0005].map incCoarseX = [0x0400, 0x0000, 0x0006] ∧
    [0x0000, 0x7000, 0x73A0, 0x7BA0, 0x73E0, 0x7FFF].map incY = [0x1000, 0x0020, 0x0800, 0x0000, 0x0000, 0x0C1F] := by
  decide +kernel

/-- V-PB: NtIndex and PalIndex. -/
theorem test_nametables : [0x2000, 0x2400, 0x2800, 0x2C00, 0x27FF, 0x3EFF].map (ntIndex .horizontal) = [0, 0, 0x400, 0x400, 0x3FF, 0x6FF] ∧
    [0x2000, 0x2400, 0x2800, 0x2C00, 0x27FF, 0x3EFF].map (ntIndex .vertical) = [0, 0x400, 0, 0x400, 0x7FF, 0x6FF] ∧
    [0x2000, 0x2FFF, 0x3EFF].map (ntIndex .singleHigh) = [0x400, 0x7FF, 0x6FF] ∧
    [0x2C00, 0x2FFF].map (ntIndex .fourScreen) = [0xC00, 0xFFF] ∧
    [0x3F04, 0x3F10, 0x3F14, 0x3F1C, 0x3F20, 0x3FFF].map palIndex = [4, 0, 4, 0xC, 0, 0x1F] := by decide +kernel

/-- CTL1. -/
theorem test_controller : let s := writes [(0x4016, 1), (0x4016, 0)] { State.reset with buttons0 := 0x09, buttons1 := 0x80 };
    (readsOf 0x4016 9 s).1 = [0x41, 0x40, 0x40, 0x41, 0x40, 0x40, 0x40, 0x40, 0x41] ∧
    (readsOf 0x4017 9 s).1 = [0x40, 0x40, 0x40, 0x40, 0x40, 0x40, 0x40, 0x41, 0x41] := by decide +kernel

/-- MEM1, MEM3, MEM4: mirrors, unmapped reads, absent PRG RAM. -/
theorem test_bus : byteAt (writes [(0x0000, 0x11)] State.reset) 0x1800 = 0x11 ∧
    [0x2000, 0x2006, 0x4000, 0x4014, 0x4018, 0x5000].map (byteAt State.reset) = [0, 0, 0, 0, 0, 0] ∧
    byteAt (writes [(0x6000, 0x33)] State.reset) 0x6000 = 0 := by decide +kernel

/-- T1: the first three samples of the 440 Hz scenario. -/
theorem test_first_samples : (audioTicks defaultParams 3 (writes [(0x4000, 0x0F), (0x4002, 0x00), (0x4003, 0x08)] State.reset).apu).samples =
    [9 / 50, 144 / 625, 7641 / 31250] := by decide +kernel

/-- APU2: the noise register after ten clocks, then ten more. -/
theorem test_noise : lfsrClocks false 10 0x0001 = 0x0020 ∧ lfsrClocks false 10 0x0020 = 0x0600 ∧ lfsrClocks true 1 0x0001 = 0x4000 := by
  decide +kernel

/-- APU6: five half-frame clocks of a sweep that negates, on each pulse channel. -/
theorem test_sweep : let u := (writes [(0x4002, 0), (0x4003, 1), (0x4001, 0x89), (0x4006, 0), (0x4007, 1), (0x4005, 0x89)] State.reset).apu
    let h := halfClock defaultParams
    ((h (h (h u))).pulse0.period = 0x01F ∧ (h (h (h u))).pulse1.period = 0x020) := by decide +kernel

/-- MAP4, steps 1 and 2, and step 8. -/
theorem test_serial_port : let m := powerOnMapper blankCart
    let w := fun (a : Word) (d : Byte) (m : MapperRegs) => mmc1Write a d m
    let m4 := w 0x8000 0 (w 0x8000 0 (w 0x8000 1 (w 0x8000 0 m)))
    (m4.sr = 2 ∧ m4.srCount = 4 ∧ (w 0xE000 0 m4).prgBank = 2 ∧ (w 0xE000 0 m4).srCount = 0) ∧
    (let r := w 0x8000 0x80 (w 0x8000 1 m); r.sr = 0 ∧ r.srCount = 0 ∧ r.prgMode = 3) := by decide +kernel

/-- The first machine cycle after reset runs the placed instruction, of one, two and three bytes. -/
theorem test_fetch_word : (let t := match step (State.reset.withFetchWord 16 0x80A9) with | .next t => t | _ => State.reset;
      t.cpu.a = 0x80 ∧ t.cpu.pc = 0x0002 ∧ t.cpu.wait = 1) ∧
    (let t := match step (State.reset.withFetchWord 24 0x12344C) with | .next t => t | _ => State.reset; t.cpu.pc = 0x1234) ∧
    (let t := match step (State.reset.withFetchWord 8 0xE8) with | .next t => t | _ => State.reset; t.cpu.x = 1) := by
  decide +kernel

/-! ## Witnesses

For every statement with hypotheses, states and operands that meet all of them, at the edges of their ranges. -/

def answers : Host.Outcome State Fault Refusal → Bool
  | .next _ => true
  | .fault _ => false
  | .refused _ => false

theorem exists_of_answers {o : Host.Outcome State Fault Refusal} (h : answers o = true) : ∃ t, o = .next t := by
  cases o with
  | next t => exact ⟨t, rfl⟩
  | fault _ => cases h
  | refused _ => cases h

/-- Reset with `code` in work RAM at 0x0200 and PC there. -/
def ready (code : List Byte) : State :=
  { State.reset with ram := Memory.ofBytes 0x0200 code, cpu := { State.reset.cpu with pc := 0x0200 } }

/-- Reset with one idle tick owed, the picture unit at the given dot, PPUCTRL and PPUMASK given. -/
def idle (scanline dot : Nat) (ctrl mask : Byte) : State :=
  { State.reset with
    cpu := { State.reset.cpu with wait := 1 }
    ppu := { resetPpu with scanline := scanline, dot := dot, ctrl := ctrl, mask := mask } }

theorem idle_inv (scanline dot : Nat) (ctrl mask : Byte) (h1 : scanline < 262) (h2 : dot < 341) :
    Inv (idle scanline dot ctrl mask) := by
  have z : InUnit 0 := by unfold InUnit; decide +kernel
  have r : InRange 0 := by unfold InRange; decide +kernel
  have n : SpriteListOk [] := ⟨by decide, fun _ h => absurd h (List.not_mem_nil), .nil⟩
  have m : ∀ w size, MemoryOk size ([] : Memory w) := fun _ _ => ⟨rfl, rfl⟩
  have ua : ApuOk defaultParams (resetApu 1 true) :=
    { pulse0 := ⟨.inl ⟨rfl, rfl⟩, z⟩, pulse1 := ⟨.inl ⟨rfl, rfl⟩, z⟩, tri := ⟨.inl ⟨rfl, rfl⟩, z⟩
      noise := ⟨.inl rfl, by decide, z⟩, seqCount := by decide, seqStep := by decide
      samples := fun _ h => absurd h (List.not_mem_nil), capped := Nat.zero_le _, yPrev := r, master := by decide +kernel }
  have mp : MapperOk (powerOnMapper blankCart) := ⟨by decide, by decide⟩
  have pp : PpuOk resetPpu := ⟨by decide, by decide, m _ _, m _ _, n, n⟩
  exact
    { qfPeriod := show 0 < defaultParams.qfPeriod by decide
      frameCycle := show 0 < defaultParams.cyclesPerFrame by decide
      live := ⟨m _ _, m _ _, m _ _, m _ _, m _ _, fun _ => rfl, fun _ => rfl, ⟨h1, h2, m _ _, m _ _, n, n⟩, ua,
        mp, rfl⟩
      snap := ⟨m _ _, m _ _, m _ _, m _ _, m _ _, fun _ => rfl, fun _ => rfl, pp, ua, mp, rfl⟩ }

theorem idle_step (scanline dot : Nat) (ctrl mask : Byte) : ∃ t, step (idle scanline dot ctrl mask) = .next t := by
  rcases step_cases (idle scanline dot ctrl mask) with h | h | h | h
  · exact ⟨_, h.2⟩
  · exact absurd h.1 Nat.one_ne_zero
  · exact absurd h.1 Nat.one_ne_zero
  · exact absurd h.1 Nat.one_ne_zero

theorem witness_DecodeEncodeRoundTrip : (Instr.ldaAbs 0xFFFF).wf = true ∧ (Instr.und 0x02).wf = true := by decide
theorem witness_UndefinedBytesDecodeToUnd : (0x02 : Byte) ∈ undefinedOpcodes ∧ (0xFF : Byte) ∈ undefinedOpcodes ∧
    ¬ (0xEA : Byte) ∈ undefinedOpcodes := by decide +kernel

theorem witness_StepRunsDecodedInstruction : ∃ (s t : State) (i : Instr) (rest : List Byte),
    (atTick s).cpu.wait = 0 ∧ (atTick s).cpu.pendNMI = false ∧
    ((atTick s).cpu.pendIRQ = false ∨ (atTick s).cpu.flags.i = true) ∧
    (∀ k, k < i.length → isMemory ((atTick s).cpu.pc + BitVec.ofNat 16 k) = true) ∧
    decode [byteAt (atTick s) (atTick s).cpu.pc, byteAt (atTick s) ((atTick s).cpu.pc + 1),
      byteAt (atTick s) ((atTick s).cpu.pc + 2)] = .ok (i, rest) ∧
    exec i ((atTick s).setPc ((atTick s).cpu.pc + BitVec.ofNat 16 i.length)) = .next t :=
  ⟨ready [0xAD, 0x34, 0x12], _, .ldaAbs 0x1234, [], by decide +kernel, by decide +kernel, by decide +kernel,
    by decide +kernel, rfl, rfl⟩

theorem witness_FetchReadsTheInstruction : let s := ready [0xA9, 0x80]
    ∀ k, k < (fetchInstr s).1.length → hasReadEffect (s.cpu.pc + BitVec.ofNat 16 k) = false := by decide +kernel
theorem witness_IdleTick : 0 < (idle 0 0 0 0).cpu.wait := by decide

/-- The NMI latched before the cycle, and latched by its last dot. -/
theorem witness_NmiEntry : (let s := { ready [] with cpu := { (ready []).cpu with pendNMI := true } };
      s.ram.wf = true ∧ (atTick s).cpu.wait = 0 ∧ (atTick s).cpu.pendNMI = true) ∧
    (let s := { ready [] with ppu := { resetPpu with scanline := 240, dot := 340, ctrl := 0x80 } };
      s.ram.wf = true ∧ (atTick s).cpu.wait = 0 ∧ (atTick s).cpu.pendNMI = true) := by decide +kernel

/-- The IRQ input asserted at tick 1 with I = 0; then a latched IRQ with I = 1. -/
theorem witness_IrqEntry : (let s := { ready [] with
        cpu := { (ready []).cpu with flags := { resetFlags with i := false } }, cfg := { blankConfig with irqIn := [1] } };
      s.ram.wf = true ∧ (atTick s).cpu.wait = 0 ∧ (atTick s).cpu.pendNMI = false ∧ (atTick s).cpu.pendIRQ = true ∧
      s.cpu.flags.i = false) ∧
    (let s := { ready [0xEA] with cpu := { (ready []).cpu with pendIRQ := true } };
      s.cpu.pendIRQ = true ∧ s.cpu.flags.i = true ∧ answers (step s) = true) := by decide +kernel

theorem witness_NoInstructionUsesTheLatches : ∃ t, exec .nop State.reset = .next t := ⟨_, rfl⟩

/-- A record that the construction takes: mapper 3, one PRG bank, CHR RAM. -/
def goodRecord : CartRecord :=
  { mapperId := 3, prgBanks := 1, chrBanks := 0, mirroring := .fourScreen, hasPrgRam := false
    prg := List.replicate 16384 0, chr := [] }

theorem goodRecord_sized : goodRecord.sized = true := by
  unfold CartRecord.sized
  rw [show decide (goodRecord.prg.length = prgBankSize * goodRecord.prgBanks) = true from
    decide_eq_true List.length_replicate]
  rfl

theorem witness_ResetMeetsInvariant : 0 < defaultParams.qfPeriod ∧ 0 < defaultParams.cyclesPerFrame ∧
    ∃ t, construct defaultParams [] goodRecord = .next t := by
  refine ⟨by decide, by decide, ?_⟩
  unfold construct CartRecord.toCart
  rw [goodRecord_sized]
  exact ⟨_, rfl⟩

theorem witness_StepKeepsInvariant : ∃ s t, Inv s ∧ step s = .next t :=
  (idle_step 261 340 0x80 0x18).elim fun t h => ⟨_, t, idle_inv 261 340 0x80 0x18 (by decide) (by decide), h⟩

/-- `s` with `k` machine cycles of a frame step done. -/
def midFrame (k : Nat) (s : State) : State := { s with frameCycle := k }

theorem witness_HostOperationsKeepInvariant : Inv (idle 0 0 0 0) ∧ (idle 0 0 0 0).frameCycle = 0 ∧
    (midFrame 1 (idle 0 0 0 0)).frameCycle ≠ 0 ∧ (∃ t, hostStep .reset (idle 0 0 0 0) = .next t) ∧
    (∃ t, hostStep .restore (idle 0 0 0 0) = .next t) ∧ (∃ t, hostStep (.setMasterVolume 2) (idle 0 0 0 0) = .next t) ∧
    (idle 0 0 0 0).ram.wf = true ∧ (0x7FF : BitVec 11).toNat = 2047 :=
  ⟨idle_inv 0 0 0 0 (by decide) (by decide), rfl, by decide, ⟨_, rfl⟩, ⟨_, rfl⟩, ⟨_, rfl⟩, rfl, rfl⟩

/-- The volume is limited at both ends (46_apu.md R339); a byte written through memory() is read there (70 R458); the
button byte goes to its own port (R460). -/
theorem test_host_effects :
    [(-1 : Rat), 0, 1 / 2, 1, 2].map (fun q => (setMasterVolume q State.reset).apu.master) = [0, 0, 1 / 2, 1, 1] ∧
    (pokeMemory 0x7FF 0x5A State.reset).ram.read 2047 = 0x5A ∧
    ((setButtons true 0x80 State.reset).buttons0, (setButtons true 0x80 State.reset).buttons1) = (0x00, 0x80) := by
  decide +kernel

/-- The first cycle of a frame step, and the last one with the audio switched off. -/
theorem witness_StepLeavesHostState : (∃ s t, step s = .next t ∧ s.frameCycle + 1 < s.cfg.params.cyclesPerFrame) ∧
    ∃ s t, step s = .next t ∧ s.frameCycle + 1 = s.cfg.params.cyclesPerFrame ∧ s.apu.audioEnabled = false := by
  refine ⟨(idle_step 0 0 0 0).elim fun t h => ⟨_, t, h, by decide⟩, ?_⟩
  let s := { midFrame 29780 (idle 0 0 0 0) with apu := resetApu 1 false }
  rcases step_cases s with h | h | h | h
  · exact ⟨s, _, h.2, by decide, rfl⟩
  · exact absurd h.1 Nat.one_ne_zero
  · exact absurd h.1 Nat.one_ne_zero
  · exact absurd h.1 Nat.one_ne_zero

theorem witness_FrameStepClock : Inv (idle 261 340 0 0) ∧ (idle 261 340 0 0).frameCycle = 0 :=
  ⟨idle_inv _ _ _ _ (by decide) (by decide), rfl⟩

/-- One instruction for each clause, which changes that flag or SP. -/
theorem witness_FlagAndStackWriters :
    (let s := start [] 0 0 0 false
     (run1 .sec s).cpu.flags.c ≠ s.cpu.flags.c ∧ (run1 (.ldaImm 0) s).cpu.flags.z ≠ s.cpu.flags.z ∧
     (run1 (.ldaImm 0x80) s).cpu.flags.n ≠ s.cpu.flags.n ∧ (run1 .cli s).cpu.flags.i ≠ s.cpu.flags.i ∧
     (run1 .sed s).cpu.flags.d ≠ s.cpu.flags.d ∧ (run1 .txs s).cpu.sp ≠ s.cpu.sp) ∧
    (run1 (.adcImm 0x01) (start [] 0x7F 0 0 false)).cpu.flags.v ≠ false ∧ ∃ t, exec .sec State.reset = .next t :=
  ⟨by decide +kernel, by decide +kernel, ⟨_, rfl⟩⟩

/-- The tables of rows are not empty: every instruction and mode of R127 is in one. -/
theorem witness_rows (b z : Byte) (a : Word) :
    [(ldaRows b z a).length, (ldxRows b z a).length, (ldyRows b z a).length, (adcRows b z a).length, (sbcRows b z a).length,
     (andRows b z a).length, (oraRows b z a).length, (eorRows b z a).length, (bitRows z a).length, (cmpRows b z a).length,
     (cpxRows b z a).length, (cpyRows b z a).length] = [8, 5, 5, 8, 8, 8, 8, 8, 2, 8, 3, 3] ∧
    [(staRows z a).length, (stxRows z a).length, (styRows z a).length, (incRows z a).length, (decRows z a).length,
     (shiftMemRows z a).length, shiftAccRows.length, transferRows.length, stepRows.length, (branchRows b).length,
     flagRows.length] = [7, 3, 3, 4, 4, 16, 4, 6, 4, 8, 8] := ⟨rfl, rfl⟩

/-- Memories in canonical form, empty and not. -/
theorem witness_StoreRegisters : (ready [1, 0, 2]).ram.wf = true ∧ (ready []).prgRam.wf = true := by decide
theorem witness_StackPushes : (ready [1, 0, 2]).ram.wf = true := by decide
theorem witness_IncrementDecrementMemory : (ready [1, 0, 2]).ram.wf = true ∧ (ready []).prgRam.wf = true := by decide
theorem witness_ShiftsAndRotates : (ready [1, 0, 2]).ram.wf = true ∧ (ready []).prgRam.wf = true := by decide
theorem witness_SubroutineCall : (ready [1, 0, 2]).ram.wf = true := by decide
theorem witness_BreakTrap : (ready [1, 0, 2]).ram.wf = true := by decide
theorem witness_Jumps : hasReadEffect 0x02FF = false ∧ hasReadEffect 0x0200 = false ∧
    (BitVec.ofNat 16 (256 * ((0x02FF : Word).toNat / 256) + ((0x02FF : Word).toNat + 1) % 256)) = (0x0200 : Word) := by decide

/-- Each clause at both ends of its range, and the quiet neighbours. -/
theorem witness_ReadSideEffects :
    [0x0000, 0x1FFF, 0x2001, 0x3FFD, 0x4015, 0x4018, 0xFFFF].map hasReadEffect = [false, false, false, false, false, false, false] ∧
    [0x2002, 0x2007, 0x3FFA, 0x3FFF, 0x4016, 0x4017].map hasReadEffect = [true, true, true, true, true, true] ∧
    (0x2000 ≤ (0x3FFA : Word) ∧ (0x3FFA : Word) < 0x4000 ∧ (0x3FFA : Word).toNat % 8 = 2) ∧
    (0x2000 ≤ (0x3FFF : Word) ∧ (0x3FFF : Word) < 0x4000 ∧ (0x3FFF : Word).toNat % 8 = 7) := by decide
theorem witness_WriteReachesOneUnit : State.reset.ram.wf = true ∧ State.reset.prgRam.wf = true ∧
    (0x4018 : Word) ≤ 0x4018 ∧ (0x5FFF : Word) < 0x6000 := by decide
theorem witness_CpuMemoryMap : State.reset.ram.wf = true ∧ State.reset.prgRam.wf = true ∧
    (0x1FFF : Word) < 0x2000 ∧ (0x07FF : Word) < 0x2000 ∧ (0x3FFE : Word).toNat % 8 ∈ [0, 1, 3, 5, 6] ∧
    ((0x4000 : Word) ≤ 0x4014 ∧ (0x4014 : Word) < 0x4015) ∧ ((0x4018 : Word) ≤ 0x5FFF ∧ (0x5FFF : Word) < 0x6000) ∧
    (0x6000 : Word) ≤ 0x7FFF ∧ (0x7FFF : Word) < 0x8000 ∧ State.reset.cfg.cart.hasPrgRam = false ∧
    (let s := { State.reset with cfg := { State.reset.cfg with cart := { blankCart with hasPrgRam := true } } };
      s.ram.wf = true ∧ s.prgRam.wf = true ∧ s.cfg.cart.hasPrgRam = true) := by decide

/-- A page of work RAM and the last page of the ROM. -/
theorem witness_OamDmaCopiesAPage : State.reset.ppu.oam.wf = true ∧ (∀ i : Byte, isMemory (word 0x02 i) = true) ∧
    ∀ i : Byte, isMemory (word 0xFF i) = true := by decide +kernel

/-- The port read with the strobe at 1 and at 0. -/
theorem witness_ControllerReads : { State.reset.pads with strobe := true }.strobe = true ∧ State.reset.pads.strobe = false ∧
    7 < 9 ∧ 8 < 9 := by decide

/-- The eight registers at either end of the window. -/
theorem witness_PictureRegisters :
    [0x2000, 0x2001, 0x2002, 0x2003, 0x2004, 0x2005, 0x2006, 0x2007].map (fun a : Word => a.toNat % 8) = List.range 8 ∧
    [0x3FF8, 0x3FF9, 0x3FFA, 0x3FFB, 0x3FFC, 0x3FFD, 0x3FFE, 0x3FFF].map (fun a : Word => a.toNat % 8) = List.range 8 ∧
    (0x2000 : Word) ≤ 0x2000 ∧ (0x3FFF : Word) < 0x4000 := by decide

theorem witness_PictureDataWrite : State.reset.ppu.w = false ∧ State.reset.vram.wf = true ∧ State.reset.palette.wf = true ∧
    0x2000 ≤ 256 * ((0x3F : Byte).toNat % 64) + (0xFF : Byte).toNat ∧ 0x2000 ≤ 256 * ((0x20 : Byte).toNat % 64) + (0x00 : Byte).toNat := by
  decide

/-- v at the last address below the palette, at the first of the palette, and two below it. -/
theorem witness_PictureDataReadIsBuffered :
    (let s := { State.reset with ppu := { resetPpu with v := 0x3EFF } }; BitVec.ofNat 16 (s.ppu.v.toNat % 16384) < (0x3F00 : Word)) ∧
    (let s := { State.reset with ppu := { resetPpu with v := 0x3F00 } }; (0x3F00 : Word) ≤ BitVec.ofNat 16 (s.ppu.v.toNat % 16384)) ∧
    (let s := { State.reset with ppu := { resetPpu with v := 0x3EFE } };
      (cpuRead 0x2007 s).2.ppu.v.toNat % 16384 < 0x3F00 ∧ BitVec.ofNat 16 (s.ppu.v.toNat % 16384) < (0x3F00 : Word)) := by
  decide +kernel

/-- Each clause at a bound: the last byte of the last nametable, the ends of the mirrored ranges. -/
theorem witness_PictureBusMirrors : 3 < 4 ∧ 1023 < 1024 ∧ (0x2000 : Word) ≤ 0x2EFF ∧ (0x2EFF : Word) < 0x2F00 ∧ (0x3F00 : Word) ≤ 0x3FDF ∧
    (0x3FDF : Word) < 0x3FE0 ∧ State.reset.palette.wf = true ∧ (0x3F00 : Word) ≤ 0x3F0C ∧ (0x3F0C : Word) < 0x3F10 ∧
    (0x3F0C : Word).toNat % 4 = 0 := by decide

/-- The NMI latched by the first of the three dots, in an idle tick. -/
theorem witness_VideoInterruptDot : (∃ t, Inv (idle 241 1 0x80 0) ∧ (idle 241 1 0x80 0).cpu.pendNMI = false ∧
      step (idle 241 1 0x80 0) = .next t ∧ t.cpu.pendNMI = true) ∧
    ((idle 261 1 0 0).ppu.scanline = 261 ∧ (idle 261 1 0 0).ppu.dot = 1) := by
  refine ⟨?_, by decide, by decide⟩
  have h : (match step (idle 241 1 0x80 0) with | .next t => t.cpu.pendNMI | _ => false) = true := by decide +kernel
  obtain ⟨t, e⟩ := idle_step 241 1 0x80 0
  rw [e] at h
  exact ⟨t, idle_inv _ _ _ _ (by decide) (by decide), rfl, e, h⟩

theorem witness_RenderingDisabled : (idle 0 257 0x80 0xE7).ppu.mask.getLsbD 3 = false ∧
    (idle 0 257 0x80 0xE7).ppu.mask.getLsbD 4 = false := by decide

/-- The first and the last pixel of the screen are drawn; dot 257 draws none but moves the scroll address. -/
theorem witness_PixelWrite : State.reset.ppu.fb.wf = true ∧ 255 < 256 ∧ (idle 0 257 0 0x08).ppu.mask.getLsbD 3 = true ∧
    (let p := (idle 0 1 0 0x08).ppu; p.scanline < 240 ∧ 1 ≤ p.dot ∧ p.dot ≤ 256 ∧ p.mask.getLsbD 3 = true) ∧
    (let p := (idle 239 256 0 0x10).ppu; p.scanline < 240 ∧ 1 ≤ p.dot ∧ p.dot ≤ 256 ∧ p.mask.getLsbD 4 = true) ∧
    ¬ (idle 0 257 0 0x08).ppu.dot ≤ 256 := by decide

theorem witness_BackdropEntriesNeverShown :
    palIndex (compose (bgPixel State.reset 0) (sprPixel State.reset 0)) % 4 = 0 := by decide +kernel

/-- The dots at which the sprite lists and the flags change, at the ends of their ranges, with either layer shown: the first
and the last visible scanline evaluate at dot 257 and scanline 240 does not, scanline 261 empties there and clears at dot
1, dot 0 copies, scanline 261 dot 340 ends the frame. -/
theorem witness_SpriteEvaluation :
    ((idle 0 257 0 0x08).ppu.mask.getLsbD 3 = true ∧ (idle 0 257 0 0x10).ppu.mask.getLsbD 4 = true) ∧
    [(0, 257), (239, 257), (240, 257), (261, 257)].map (fun q : Nat × Nat =>
      decide ((idle q.1 q.2 0 0x18).ppu.scanline < 240 ∧ (idle q.1 q.2 0 0x18).ppu.dot = 257)) = [true, true, false, false] ∧
    [(0, 1), (239, 256), (0, 0), (240, 1)].map (fun q : Nat × Nat =>
      decide (q.1 < 240 ∧ 1 ≤ q.2 ∧ q.2 ≤ 256)) = [true, true, false, false] ∧
    ((idle 261 1 0 0x18).ppu.scanline = 261 ∧ (idle 261 1 0 0x18).ppu.dot = 1) ∧
    ((idle 241 1 0x80 0x18).ppu.scanline = 241 ∧ (idle 241 1 0x80 0x18).ppu.dot = 1) ∧
    (idle 0 0 0 0x18).ppu.dot = 0 ∧ ((idle 261 340 0 0x18).ppu.dot + 1 = 341 ∧ (idle 261 340 0 0x18).ppu.scanline + 1 = 262) := by
  decide

/-- A sprite at row 0 of the screen is listed by scanline 0 dot 257 for scanline 1, not by dot 256 (45_ppu.md R264, R285). -/
theorem test_sprite_evaluation_dot :
    let s := fun dot => { idle 0 dot 0 0x18 with ppu := { (idle 0 dot 0 0x18).ppu with
      oam := Memory.ofBytes 0 (List.replicate 20 0 ++ List.replicate 236 0xFF) } }
    (ppuTick (s 257)).ppu.sprNext = [0, 1, 2, 3, 4] ∧ (ppuTick (s 256)).ppu.sprNext = [] := by decide +kernel

theorem witness_SequencerPeriod : (resetApu 1 true).seqCount + 7456 < defaultParams.qfPeriod ∧
    (resetApu 1 true).seqCount + 7456 + 1 = defaultParams.qfPeriod := by decide

theorem witness_LengthStatus : 0 < 4 ∧ 3 < 4 := by decide

theorem witness_FrameAudio : (resetApu 1 true).samples.length ≤ 44100 ∧ (∀ y ∈ [(-1 : Rat), 0, 1], InRange y) ∧
    resetPulse.freq = 0 ∧ resetPulse.volume = 0 ∧ resetPulse.enabled = false := by
  unfold InRange; decide +kernel

/-- A full buffer also meets the bound of the buffer clause. -/
theorem witness_FrameAudio_full : ({ resetApu 1 true with samples := List.replicate 44100 0 } : Apu).samples.length ≤ 44100 :=
  Nat.le_of_eq List.length_replicate

/-- 46_apu.md R341, in the words of the statements: the first two samples of the source's tone are 9/50 and 144/625; the
thirteenth sample of the period is the last with the pulse high. -/
theorem test_pulse_edges :
    let ch := { resetPulse with enabled := true, volume := 15, freq := 440, length := 254 }
    (samplesOf defaultParams 2 { resetApu 1 true with pulse0 := ch }).1 = [9 / 50, 144 / 625] ∧
    (pulseSample { ch with phase := 264 / 2205 }).1 = 1 ∧ (pulseSample { ch with phase := 286 / 2205 }).1 = -1 := by
  decide +kernel

/-- 46_apu.md R333 by hand: from 1, bit 0 enters at bit 14; bit 1 and bit 6 count in modes 0 and 1 alone. -/
theorem test_noise_register : lfsrClock false 1 = 0x4000 ∧ lfsrClock false 2 = 0x4001 ∧ lfsrClock true 2 = 1 ∧
    lfsrClock true 0x40 = 0x4020 ∧ lfsrClock false 0x40 = 0x20 := by decide

def mapperState (m : MapperId) : State :=
  { State.reset with cfg := { blankConfig with cart := { blankCart with mapperId := m, prgBanks := 2 } } }

/-- The value 10110, the other bits of the bytes at both values, with a fifth address at each end of each register's range; and
the one write at every count of the shift register. -/
theorem witness_SerialBankWrite : (mapperState .m1).cfg.cart.mapperId = .m1 ∧ (mapperState .m1).mapper.sr = 0 ∧
    (mapperState .m1).mapper.srCount = 0 ∧
    ([0x8000, 0x9FFF, 0xA000, 0xBFFF, 0xC000, 0xDFFF, 0xE000, 0xFFFF].map fun a : Word => decide (0x8000 ≤ a)) =
      List.replicate 8 true ∧
    128 ≤ (0x80 : Byte).toNat ∧ 128 ≤ (0xFF : Byte).toNat ∧ (0x00 : Byte).toNat < 128 ∧ (0x7F : Byte).toNat < 128 ∧
    ([0, 1, 2, 3, 4].map fun n => decide (({ (mapperState .m1).mapper with srCount := n } : MapperRegs).srCount < 5)) =
      List.replicate 5 true ∧
    carriesBit 0x7E ((0b10110 : BitVec 5).getLsbD 0) ∧ carriesBit 0x01 ((0b10110 : BitVec 5).getLsbD 1) ∧
    carriesBit 0x7F ((0b10110 : BitVec 5).getLsbD 2) ∧ carriesBit 0x00 ((0b10110 : BitVec 5).getLsbD 3) ∧
    carriesBit 0x01 ((0b10110 : BitVec 5).getLsbD 4) := by unfold carriesBit; decide +kernel

/-- Where the four registers meet: the fifth write at each end of each range (47_mapper.md R362, R363). -/
theorem test_serial_fifth_address :
    let m := fun a => mmc1Write a 0x01 { powerOnMapper blankCart with sr := 0b0110, srCount := 4 }
    ([0x8000, 0x9FFF].map fun a => ((m a).mirror, (m a).prgMode, (m a).chrMode)) =
      [(.vertical, 1, true), (.vertical, 1, true)] ∧
    ([0xA000, 0xBFFF].map fun a => ((m a).chrBank0, (m a).chrBank1, (m a).prgBank)) = [(0b10110, 0, 0), (0b10110, 0, 0)] ∧
    ([0xC000, 0xDFFF].map fun a => ((m a).chrBank0, (m a).chrBank1, (m a).prgBank)) = [(0, 0b10110, 0), (0, 0b10110, 0)] ∧
    ([0xE000, 0xFFFF].map fun a => ((m a).chrBank0, (m a).chrBank1, (m a).prgBank)) = [(0, 0, 0b10110), (0, 0, 0b10110)] := by
  decide +kernel

theorem witness_RomBanks : (0x8000 : Word) ≤ 0x8000 ∧ (mapperState .m0).cfg.cart.mapperId = .m0 ∧
    (mapperState .m2).cfg.cart.mapperId = .m2 ∧ 0 < (mapperState .m2).cfg.cart.prgBanks ∧
    (mapperState .m1).cfg.cart.mapperId = .m1 ∧ (mapperState .m3).cfg.cart.mapperId = .m3 ∧ (0x1FFF : Word) < 0x2000 := by
  decide

/-- A record the construction takes, and one it refuses for its identifier. -/
theorem witness_Construction :
    (goodRecord.mapperId < 4 ∧ 1 ≤ goodRecord.prgBanks ∧ goodRecord.prg.length = 16384 * goodRecord.prgBanks ∧
      goodRecord.chr.length = 8192 * goodRecord.chrBanks ∧ goodRecord.mirroring ≠ .singleLow ∧
      goodRecord.mirroring ≠ .singleHigh) ∧ ¬ ({ goodRecord with mapperId := 4 } : CartRecord).mapperId < 4 :=
  ⟨⟨by decide, Nat.le_refl _, List.length_replicate, rfl, by decide, by decide⟩, by decide⟩

theorem witness_BackupRestore : (∃ t, runCycles 0 (backup State.reset) = .next t) ∧
    (∃ t, runCycles 1 (backup (idle 0 0 0 0)) = .next t) ∧ (idle 0 0 0 0).frameCycle = 0 ∧
    HostOp.backup ∉ [HostOp.setButtons true 0x80, .pokeMemory 0x7FF 1] ∧
    ∃ t, runOps ([.backup] ++ [.setButtons true 0x80, .pokeMemory 0x7FF 1] ++ [.restore]) (idle 0 0 0 0) = .next t := by
  refine ⟨⟨_, rfl⟩, ?_, rfl, by decide, ⟨_, rfl⟩⟩
  rcases step_cases (backup (idle 0 0 0 0)) with h | h | h | h
  · exact ⟨_, by unfold runCycles; rw [h.2]; rfl⟩
  · exact absurd h.1 Nat.one_ne_zero
  · exact absurd h.1 Nat.one_ne_zero
  · exact absurd h.1 Nat.one_ne_zero

/-! ## The frame step and the host -/

theorem test_host_refused_mid_frame :
    hostStep (.setButtons false 0xFF) (midFrame 29780 State.reset) = .refused .midFrameStep ∧
    memoryByte (midFrame 1 State.reset) 0 = .error .midFrameStep := ⟨rfl, rfl⟩

/-- 29781 machine cycles make a frame step (70_reset_and_hazards.md R457): the last one ends it, the one before does not. -/
theorem test_frame_step_count :
    (match step (midFrame 29780 (idle 0 0 0 0)) with | .next t => t.frameCycle | _ => 1) = 0 ∧
    (match step (midFrame 29779 (idle 0 0 0 0)) with | .next t => t.frameCycle | _ => 1) = 29780 := by decide +kernel

theorem test_audio_view_keeps_samples :
    let s := { State.reset with apu := { State.reset.apu with samples := [1, 0] } }
    (match audioView s with | .ok l => l == [1, 0] | .error _ => false) = true ∧
    (match getAndClearBuffer s with | .ok (l, t) => l == [1, 0] && t.apu.samples == [] | .error _ => false) = true := by
  decide +kernel

end Sys2Proof.Tests
end

/-! # The state: what every step, every instruction and power-on do to it (10_state.md) -/

namespace Sys2Proof.Machine

open Sys2Proof.Claims

/-! ## The picture unit keeps its condition at every dot -/

theorem SpriteListOk.nil : SpriteListOk [] := ⟨Nat.zero_le _, fun _ h => (nomatch h), .nil⟩

/-- Candidates that follow the sprites found so far in rising order leave a well-formed buffer (45_ppu.md R285). -/
theorem evalSprites_ok (p : Ppu) (n : Nat) (cands found : List Nat) (ninth : Bool) (len : found.length ≤ 8)
    (bound : ∀ i ∈ found ++ cands, i < 64) (rising : (found ++ cands).Pairwise (· < ·)) :
    SpriteListOk (evalSprites p n cands (found, ninth)).1 := by
  induction cands generalizing found ninth with
  | nil =>
    rw [List.append_nil] at bound rising
    exact ⟨len, bound, rising⟩
  | cons i is ih =>
    have skipped : (found ++ is).Sublist (found ++ i :: is) := (List.sublist_cons_self i is).append_left found
    have skip := fun b => ih found b len (fun j hj => bound j (skipped.subset hj)) (rising.sublist skipped)
    rw [evalSprites]
    split
    · split
      · next _ room =>
        exact ih (found ++ [i]) ninth (by simpa [spritesPerLine] using Nat.succ_le_of_lt room) (by simpa using bound)
          (by simpa using rising)
      · exact skip true
    · exact skip ninth

theorem PpuOk.evaluate {p : Ppu} (h : PpuOk p) : PpuOk (evaluate p) :=
  { h with
    sprNext := evalSprites_ok p _ (List.range 64) [] p.overflow (Nat.zero_le 8) (fun _ hi => List.mem_range.1 hi)
      List.pairwise_lt_range }

theorem PpuOk.advanceCoarseX (c : Nat) {p : Ppu} (h : PpuOk p) : PpuOk (advanceCoarseX c p) := by
  unfold Machine.advanceCoarseX
  split
  · exact { h with }
  · exact h

/-- A pixel of a visible line lands inside the framebuffer. -/
theorem PpuOk.drawPixel {s : State} {c : Nat} (h : PpuOk s.ppu) (hy : s.ppu.scanline < screenHeight)
    (hc : c < screenWidth) : PpuOk (drawPixel c s) :=
  { h with fb := h.fb.write _ (fbIndex_lt hy hc) }

theorem PpuOk.visibleDot {s : State} (h : PpuOk s.ppu) (hy : s.ppu.scanline < screenHeight) : PpuOk (visibleDot s) := by
  unfold Machine.visibleDot
  dsimp only
  split
  · next inLine =>
    split
    · exact (h.drawPixel hy (show s.ppu.dot - 1 < 256 by omega)).advanceCoarseX _
    · exact h
  split
  · split
    · exact PpuOk.evaluate { h with }
    · exact { h with sprNext := .nil }
  split
  · split
    · exact { h with }
    · exact h
  · exact h

theorem PpuOk.preRenderDot {p : Ppu} (h : PpuOk p) : PpuOk (preRenderDot p) := by
  unfold Machine.preRenderDot
  split
  · exact { h with }
  split
  · exact { h with sprNext := .nil }
  split
  · split
    · exact { h with }
    · exact h
  split
  · split
    · exact { h with }
    · exact h
  · exact h

theorem PpuOk.dotEvents {s : State} (h : PpuOk s.ppu) : PpuOk (dotEvents s) := by
  unfold Machine.dotEvents
  dsimp only
  split
  · exact { h with sprCur := h.sprNext }
  split
  · next visible => exact h.visibleDot visible
  split
  · split
    · exact { h with }
    · exact h
  split
  · exact h.preRenderDot
  · exact h

/-- The position moves to another of the 262 x 341 dots (45_ppu.md R260). -/
theorem PpuOk.advanceDot {p : Ppu} (h : PpuOk p) : PpuOk (advanceDot p) := by
  have line := h.scanline
  have dot := h.dot
  unfold Machine.advanceDot dotsPerScanline scanlinesPerFrame
  split
  · refine { h with scanline := ?_, dot := Nat.zero_lt_succ 340 }
    show (if p.scanline + 1 = 262 then 0 else p.scanline + 1) < 262
    split <;> omega
  · next inside => exact { h with dot := show p.dot + 1 < 341 by omega }

theorem BusOk.ppuTick {s : State} (h : BusOk s) : BusOk (ppuTick s) :=
  { h with ppu := h.ppu.dotEvents.advanceDot }

theorem BusOk.threeDots {s : State} (h : BusOk s) : BusOk (threeDots s) := h.ppuTick.ppuTick.ppuTick

/-! ## The frame's audio keeps the condition of the audio unit -/

theorem pulseSample_ok {p : Params} {ch : Pulse} (h : PulseOk p ch) : PulseOk p (pulseSample ch).2 := by
  unfold pulseSample
  split
  · exact h
  · exact { h with phase := frac_range _ }

theorem triSample_ok {p : Params} {ch : Tri} (h : TriOk p ch) : TriOk p (triSample ch).2 := by
  unfold triSample
  split
  · exact h
  · exact { h with phase := frac_range _ }

theorem lfsrClocks_ne_zero (mode : Bool) (n : Nat) (r : BitVec 15) (h : r ≠ 0) : lfsrClocks mode n r ≠ 0 := by
  induction n generalizing r with
  | zero => exact h
  | succ n ih => exact ih _ (lfsrClock_ne_zero mode r h)

/-- What the loop of the noise channel leaves of a clock accumulator that is not negative is its fractional part
(46_apu.md R333). -/
theorem sub_floor_toNat_eq_frac {q : Rat} (h : 0 ≤ q) : q - (q.floor.toNat : Rat) = frac q := by
  have pos : 0 ≤ q.floor := Rat.le_floor_iff.2 (by simpa using h)
  have same : ((q.floor.toNat : Nat) : Rat) = (q.floor : Rat) := by
    rw [← Rat.intCast_natCast, Int.toNat_of_nonneg pos]
  rw [frac, same]

theorem nonneg_of_eq_zero {q : Rat} (h : q = 0) : 0 ≤ q := by
  subst h; exact Rat.le_refl

theorem natCast_div_nonneg (a b : Nat) : 0 ≤ (a : Rat) / (b : Rat) := by
  have pos : 0 ≤ (b : Rat) := Rat.natCast_nonneg
  rw [Rat.div_def]
  refine Rat.mul_nonneg Rat.natCast_nonneg ?_
  by_cases zero : (b : Rat) = 0
  · exact nonneg_of_eq_zero ((congrArg (·⁻¹) zero).trans Rat.inv_zero)
  · exact Rat.le_of_lt (Rat.inv_pos.2 (Rat.lt_of_le_of_ne pos (Ne.symm zero)))

theorem NoiseOk.freq_nonneg {p : Params} {ch : Noise} (h : NoiseOk p ch) : 0 ≤ ch.freq := by
  rcases h.freq with e | e
  · exact nonneg_of_eq_zero e
  · rw [e]; exact natCast_div_nonneg _ _

/-- The accumulator grows by `freq` / 44100 of a clock at each sample (46_apu.md R333). -/
theorem NoiseOk.grown_nonneg {p : Params} {ch : Noise} (h : NoiseOk p ch) :
    0 ≤ ch.acc + ch.freq / (sampleRate : Rat) := by
  have rate : 0 ≤ ((sampleRate : Rat))⁻¹ := Rat.le_of_lt (Rat.inv_pos.2 (by decide))
  rw [Rat.div_def]
  exact Rat.add_nonneg h.acc.1 (Rat.mul_nonneg h.freq_nonneg rate)

theorem noiseSample_ok {p : Params} {ch : Noise} (h : NoiseOk p ch) : NoiseOk p (noiseSample ch).2 := by
  unfold noiseSample
  split
  · exact h
  · exact
      { h with
        lfsr := lfsrClocks_ne_zero _ _ _ h.lfsr
        acc := by
          show InUnit (_ - _)
          rw [sub_floor_toNat_eq_frac h.grown_nonneg]
          exact frac_range _ }

theorem filter_inRange (p : Params) (yPrev m : Rat) : InRange (filter p yPrev m) :=
  clamp_range _ (-1) 1 (by decide)

theorem appendSample_capped (y : Rat) {l : List Rat} (h : l.length ≤ bufferCap) :
    (appendSample y l).length ≤ bufferCap := by
  rw [appendSample_eq y l h, List.length_drop, List.length_append, List.length_singleton]
  generalize bufferCap = cap at h ⊢
  omega

theorem audioTick_ok {p : Params} {u : Apu} (h : ApuOk p u) : ApuOk p (audioTick p u) :=
  { h with
    pulse0 := pulseSample_ok h.pulse0
    pulse1 := pulseSample_ok h.pulse1
    tri := triSample_ok h.tri
    noise := noiseSample_ok h.noise
    samples := fun z hz => by
      rcases appendSample_mem hz with new | old
      · rw [new]; exact filter_inRange p _ _
      · exact h.samples z old
    capped := appendSample_capped _ h.capped
    yPrev := filter_inRange p _ _ }

theorem audioTicks_ok {p : Params} (n : Nat) {u : Apu} (h : ApuOk p u) : ApuOk p (audioTicks p n u) := by
  induction n generalizing u with
  | zero => exact h
  | succ n ih => exact ih (audioTick_ok h)

theorem generateFrameAudio_ok {p : Params} {u : Apu} (h : ApuOk p u) : ApuOk p (generateFrameAudio p u) :=
  audioTicks_ok samplesPerFrame h

/-! ## The step -/

theorem endFrame_ok {s : State} (h : ApuOk s.cfg.params s.apu) : ApuOk s.cfg.params (endFrame s).apu := by
  obtain ⟨u, e, which⟩ := endFrame_cases s
  have ok : ApuOk s.cfg.params u := by
    rcases which with same | made
    · rw [same]; exact h
    · rw [made]; exact generateFrameAudio_ok h
  rw [e]; exact ok

theorem countCycle_ok {s : State} (h : ApuOk s.cfg.params s.apu) : ApuOk s.cfg.params (countCycle s).apu := by
  by_cases last : s.cfg.params.cyclesPerFrame ≤ s.frameCycle + 1
  · rw [countCycle_last last]; exact endFrame_ok (s := { s with frameCycle := 0 }) h
  · rw [countCycle_mid (by omega)]; exact h

theorem countCycle_frameCycle (s : State) : (countCycle s).frameCycle =
    if s.cfg.params.cyclesPerFrame ≤ s.frameCycle + 1 then 0 else s.frameCycle + 1 := by
  split
  · next last =>
    obtain ⟨u, e, -⟩ := endFrame_cases { s with frameCycle := 0 }
    rw [countCycle_last last, e]
  · next mid => rw [countCycle_mid (by omega)]

theorem BusOk.closeCycle {s : State} (h : BusOk s) : BusOk (closeCycle s) := by
  have apu : ApuOk s.cfg.params (Machine.closeCycle s).apu := countCycle_ok (s := audioUnitTick s) (apuTick_ok h.apu)
  rw [closeCycle_eq]
  exact { h with apu := apu }

/-- The conditions the bus keeps, with no stall left over, are those of the live state. -/
theorem BusOk.liveOk {s : State} (h : BusOk s) (stall : s.cpu.dmaStall = 0) : LiveOk s.cfg s.toLive :=
  ⟨h.ram, h.vram, h.palette, h.prgRam, h.chrRam, h.noPrgRam, h.noChrRam, h.ppu, h.apu, h.mapper, stall⟩

/-- A frame step that has a cycle to come still has one after the count, or is over. -/
theorem closeCycle_frameCycle_lt {s : State} (h : s.frameCycle < s.cfg.params.cyclesPerFrame) :
    (closeCycle s).frameCycle < s.cfg.params.cyclesPerFrame := by
  have count := countCycle_frameCycle (audioUnitTick s)
  change (closeCycle s).frameCycle =
    if s.cfg.params.cyclesPerFrame ≤ s.frameCycle + 1 then 0 else s.frameCycle + 1 at count
  rw [count]
  split <;> omega

/-- Neither the dots nor the CPU tick change what the host holds or the count of the frame step. -/
theorem BusReach.hostKept {s u : State} (h : BusReach (threeDots s) u) :
    u.cfg = s.cfg ∧ u.snap = s.snap ∧ u.buttons0 = s.buttons0 ∧ u.buttons1 = s.buttons1 ∧
      u.frameCycle = s.frameCycle := by
  obtain ⟨cfg, snap, port0, port1, -, count⟩ := h.fixed
  exact ⟨cfg, snap, port0, port1, count⟩

theorem Inv.step {s t : State} (h : Inv s) (e : step s = .next t) : Inv t := by
  obtain ⟨u, reach, stall, -, rfl⟩ := step_reach e
  obtain ⟨cfg, snap, -, -, count⟩ := reach.hostKept
  have ok : BusOk (Machine.closeCycle u) := (reach.busOk h.busOk.threeDots).closeCycle
  have noStall : u.cpu.dmaStall = 0 := stall.elim id fun same => same.trans h.live.dmaStall
  exact
    { qfPeriod := by rw [closeCycle_cfg, cfg]; exact h.qfPeriod
      frameCycle := by
        rw [closeCycle_cfg]
        exact closeCycle_frameCycle_lt (by rw [cfg, count]; exact h.frameCycle)
      live := ok.liveOk (by rw [closeCycle_cpu, noStall])
      snap := by rw [closeCycle_cfg, closeCycle_snap, cfg, snap]; exact h.snap }

/-- Settles O13: the three dots keep the conditions of the bus, whatever the CPU tick reaches over the bus keeps them,
and the audio that closes the cycle keeps them. -/
theorem stepKeepsInvariant : Obligations.StepKeepsInvariant :=
  fun _ _ inv next => inv.step next

/-! ## What only the host and the frame's audio change in the audio unit -/

/-- The volume and the audio switch are the same. -/
structure SwitchesKept (u u' : Apu) : Prop where
  master : u'.master = u.master
  audioEnabled : u'.audioEnabled = u.audioEnabled

/-- The volume, the audio switch, the sample buffer and the filter memory are the same. -/
structure OutputKept (u u' : Apu) : Prop extends SwitchesKept u u' where
  samples : u'.samples = u.samples
  yPrev : u'.yPrev = u.yPrev

theorem SwitchesKept.trans {u v w : Apu} (h : SwitchesKept u v) (h' : SwitchesKept v w) : SwitchesKept u w :=
  ⟨h'.master.trans h.master, h'.audioEnabled.trans h.audioEnabled⟩

theorem OutputKept.refl (u : Apu) : OutputKept u u := ⟨⟨rfl, rfl⟩, rfl, rfl⟩

theorem OutputKept.trans {u v w : Apu} (h : OutputKept u v) (h' : OutputKept v w) : OutputKept u w :=
  ⟨h.toSwitchesKept.trans h'.toSwitchesKept, h'.samples.trans h.samples, h'.yPrev.trans h.yPrev⟩

theorem quarterClock_outputKept (u : Apu) : OutputKept u (quarterClock u) := ⟨⟨rfl, rfl⟩, rfl, rfl⟩

theorem halfClock_outputKept (p : Params) (u : Apu) : OutputKept u (halfClock p u) := ⟨⟨rfl, rfl⟩, rfl, rfl⟩

theorem sequencerStep_outputKept (p : Params) (five : Bool) (k : Nat) (u : Apu) :
    OutputKept u (sequencerStep p five k u) := by
  unfold sequencerStep
  split
  case h_9 => exact .refl u
  all_goals first
    | exact quarterClock_outputKept u
    | exact (quarterClock_outputKept u).trans (halfClock_outputKept p _)

theorem apuTick_outputKept (p : Params) (u : Apu) : OutputKept u (apuTick p u) := by
  unfold apuTick
  split
  · obtain ⟨⟨master, enabled⟩, samples, yPrev⟩ :=
      sequencerStep_outputKept p u.seqMode u.seqStep { u with seqCount := 0 }
    exact ⟨⟨master, enabled⟩, samples, yPrev⟩
  · exact ⟨⟨rfl, rfl⟩, rfl, rfl⟩

theorem writeSequencer_outputKept (p : Params) (d : Byte) (u : Apu) : OutputKept u (writeSequencer p d u) := by
  unfold writeSequencer
  dsimp only
  split <;> exact ⟨⟨rfl, rfl⟩, rfl, rfl⟩

/-- No register write reaches the volume, the audio switch or the output. -/
theorem apuWrite_outputKept (p : Params) (k : BitVec 5) (d : Byte) (u : Apu) : OutputKept u (apuWrite p k d u) := by
  unfold apuWrite
  split
  case h_20 => exact writeSequencer_outputKept p d u
  all_goals exact ⟨⟨rfl, rfl⟩, rfl, rfl⟩

/-- A write reaches the audio unit as a write of one of its registers, or not at all. -/
theorem cpuWrite_apu_cases (a : Word) (v : Byte) (s : State) :
    (cpuWrite a v s).apu = s.apu ∨ (cpuWrite a v s).apu = apuWrite s.cfg.params (field a 0 5) v s.apu := by
  rcases cpuWrite_cases a v s with ⟨_, e⟩ | ⟨_, _, e⟩ | ⟨_, e⟩ | ⟨_, e⟩ | ⟨_, _, _, _, e⟩ | ⟨_, _, e⟩ |
    ⟨_, _, _, e⟩ | ⟨_, _, _, e⟩ | ⟨_, e⟩ <;> rw [e]
  case inr.inl => exact .inl (ppuWriteReg_apu _ v s)
  case inr.inr.inl => exact .inl (oamDma_apu v s)
  case inr.inr.inr.inl => exact .inl (by rw [writeStrobe_eq])
  case inr.inr.inr.inr.inl => exact .inr rfl
  all_goals exact .inl rfl

theorem cpuWrite_outputKept (a : Word) (v : Byte) (s : State) : OutputKept s.apu (cpuWrite a v s).apu := by
  rcases cpuWrite_apu_cases a v s with e | e
  · rw [e]; exact .refl _
  · rw [e]; exact apuWrite_outputKept _ _ v s.apu

theorem BusReach.outputKept {s t : State} (h : BusReach s t) : OutputKept s.apu t.apu := by
  induction h with
  | refl => exact .refl _
  | read a _ ih => rw [cpuRead_apu]; exact ih
  | write a v _ ih => exact ih.trans (cpuWrite_outputKept a v _)
  | cpu c _ ih => exact ih
  | mark _ ih => exact ih

theorem audioTick_switchesKept (p : Params) (u : Apu) : SwitchesKept u (audioTick p u) := ⟨rfl, rfl⟩

theorem audioTicks_switchesKept (p : Params) (n : Nat) (u : Apu) : SwitchesKept u (audioTicks p n u) := by
  induction n generalizing u with
  | zero => exact ⟨rfl, rfl⟩
  | succ n ih => exact (audioTick_switchesKept p u).trans (ih (audioTick p u))

theorem endFrame_switchesKept (s : State) : SwitchesKept s.apu (endFrame s).apu := by
  obtain ⟨u, e, which⟩ := endFrame_cases s
  have kept : SwitchesKept s.apu u := by
    rcases which with same | made
    · rw [same]; exact ⟨rfl, rfl⟩
    · rw [made]; exact audioTicks_switchesKept _ samplesPerFrame _
  rw [e]; exact kept

theorem countCycle_switchesKept (s : State) : SwitchesKept s.apu (countCycle s).apu := by
  by_cases last : s.cfg.params.cyclesPerFrame ≤ s.frameCycle + 1
  · rw [countCycle_last last]; exact endFrame_switchesKept { s with frameCycle := 0 }
  · rw [countCycle_mid (by omega)]; exact ⟨rfl, rfl⟩

/-- In the middle of a frame step, or with the audio switched off, the count leaves the audio unit alone. -/
theorem countCycle_apu {s : State} (h : s.frameCycle + 1 < s.cfg.params.cyclesPerFrame ∨ s.apu.audioEnabled = false) :
    (countCycle s).apu = s.apu := by
  rcases h with mid | off
  · rw [countCycle_mid mid]
  · unfold countCycle endFrame
    split
    · rw [if_neg (by simp [off])]
    · rfl

theorem closeCycle_switchesKept (s : State) : SwitchesKept s.apu (closeCycle s).apu :=
  (apuTick_outputKept s.cfg.params s.apu).toSwitchesKept.trans (countCycle_switchesKept (audioUnitTick s))

theorem closeCycle_outputKept {s : State}
    (h : s.frameCycle + 1 < s.cfg.params.cyclesPerFrame ∨ s.apu.audioEnabled = false) :
    OutputKept s.apu (closeCycle s).apu := by
  have tick := apuTick_outputKept s.cfg.params s.apu
  have same : (closeCycle s).apu = apuTick s.cfg.params s.apu :=
    countCycle_apu (s := audioUnitTick s) (h.imp_right fun off => tick.audioEnabled.trans off)
  rw [same]; exact tick

/-- Settles O15: what the CPU tick reaches over the bus keeps the host's state and the audio output, and the end of the
cycle changes the output only through the frame's audio. -/
theorem stepLeavesHostState : Obligations.StepLeavesHostState := by
  intro s t e
  obtain ⟨u, reach, -, -, rfl⟩ := step_reach e
  obtain ⟨cfg, snap, port0, port1, count⟩ := reach.hostKept
  have tick : OutputKept s.apu u.apu := reach.outputKept
  obtain ⟨master, enabled⟩ := tick.toSwitchesKept.trans (closeCycle_switchesKept u)
  refine ⟨?_, ?_, ?_, ?_, master, enabled, fun quiet => ?_⟩
  · rw [closeCycle_cfg, cfg]
  · rw [closeCycle_snap, snap]
  · rw [closeCycle_buttons0, port0]
  · rw [closeCycle_buttons1, port1]
  · have kept := tick.trans (closeCycle_outputKept (by rw [cfg, count, tick.audioEnabled]; exact quiet))
    exact ⟨kept.samples, kept.yPrev⟩

/-! ## Nothing an instruction does looks at the interrupt latches -/

/-- `f` does the same with any values in the two latches, and leaves them. -/
def LatchBlind (f : State → State) : Prop := ∀ nmi irq s, f (withLatches nmi irq s) = withLatches nmi irq (f s)

theorem LatchBlind.comp {f g : State → State} (hg : LatchBlind g) (hf : LatchBlind f) : LatchBlind fun s => g (f s) :=
  fun nmi irq s => (congrArg g (hf nmi irq s)).trans (hg nmi irq (f s))

theorem LatchBlind.setFlags (f : Flags) : LatchBlind (State.setFlags f) := fun _ _ _ => rfl
theorem LatchBlind.setPc (pc : Word) : LatchBlind (State.setPc pc) := fun _ _ _ => rfl
theorem LatchBlind.finish (n : Nat) : LatchBlind (State.finish n) := fun _ _ _ => rfl

theorem withLatches_eq_setCpu (nmi irq : Bool) (s : State) :
    withLatches nmi irq s = s.setCpu { s.cpu with pendNMI := nmi, pendIRQ := irq } := rfl

theorem cpuRead_withLatches (a : Word) (nmi irq : Bool) (s : State) :
    cpuRead a (withLatches nmi irq s) = ((cpuRead a s).1, withLatches nmi irq (cpuRead a s).2) := by
  rw [withLatches_eq_setCpu, cpuRead_setCpu, withLatches_eq_setCpu, cpuRead_cpu]

theorem byteAt_withLatches (nmi irq : Bool) (s : State) (a : Word) : byteAt (withLatches nmi irq s) a = byteAt s a := by
  rw [byteAt, cpuRead_withLatches, byteAt]

theorem LatchBlind.cpuWrite (a : Word) (v : Byte) : LatchBlind (cpuWrite a v) := by
  intro nmi irq s
  rw [withLatches_eq_setCpu, cpuWrite_setCpu, withLatches_eq_setCpu, cpuWrite_cpu]
  rfl

theorem effAddr_withLatches (m : Addr) (nmi irq : Bool) (s : State) :
    effAddr m (withLatches nmi irq s) = effAddr m s :=
  (effAddr_setCpu m s { s.cpu with pendNMI := nmi, pendIRQ := irq } rfl rfl).1

theorem operand_withLatches (src : Source) (nmi irq : Bool) (s : State) :
    operand src (withLatches nmi irq s) = ((operand src s).1, withLatches nmi irq (operand src s).2) := by
  cases src with
  | imm b => rfl
  | mem m => rw [operand_mem, operand_mem, effAddr_withLatches, cpuRead_withLatches]

theorem pagePenalty_withLatches (src : Source) (nmi irq : Bool) (s : State) :
    pagePenalty src (withLatches nmi irq s) = pagePenalty src s :=
  (operand_setCpu src s { s.cpu with pendNMI := nmi, pendIRQ := irq } rfl rfl).2

theorem LatchBlind.load {set : Byte → State → State} (hset : ∀ v, LatchBlind (set v)) (src : Source) (n : Nat) :
    LatchBlind (load set src n) := by
  intro nmi irq s
  unfold Machine.load
  rw [operand_withLatches, pagePenalty_withLatches]
  dsimp only
  rw [hset]
  rfl

theorem LatchBlind.accOp (f : Byte → Byte → Flags → Byte × Flags) (src : Source) (n : Nat) :
    LatchBlind (accOp f src n) := by
  intro nmi irq s
  unfold Machine.accOp
  rw [operand_withLatches, pagePenalty_withLatches]
  rfl

theorem LatchBlind.flagOp (f : Byte → Flags → Flags) (src : Source) (n : Nat) : LatchBlind (flagOp f src n) := by
  intro nmi irq s
  unfold Machine.flagOp
  rw [operand_withLatches, pagePenalty_withLatches]
  rfl

theorem LatchBlind.store (v : Byte) (m : Addr) (n : Nat) : LatchBlind (store v m n) := by
  intro nmi irq s
  unfold Machine.store storeTo
  rw [effAddr_withLatches, LatchBlind.cpuWrite]
  rfl

theorem LatchBlind.rmwMem (f : Byte → Flags → Byte × Flags) (m : Addr) (n : Nat) : LatchBlind (rmwMem f m n) := by
  intro nmi irq s
  unfold Machine.rmwMem
  rw [effAddr_withLatches]
  dsimp only
  rw [cpuRead_withLatches]
  dsimp only
  rw [LatchBlind.cpuWrite]
  rfl

theorem LatchBlind.push (v : Byte) : LatchBlind (push v) := by
  intro nmi irq s
  rw [push_eq, push_eq]
  rfl

theorem pull_withLatches (nmi irq : Bool) (s : State) :
    pull (withLatches nmi irq s) = ((pull s).1, withLatches nmi irq (pull s).2) := by
  rw [pull_eq, pull_eq, byteAt_withLatches]
  rfl

theorem LatchBlind.pullA : LatchBlind pullA := by
  intro nmi irq s
  unfold Machine.pullA
  rw [pull_withLatches]
  rfl

theorem LatchBlind.pullFlags : LatchBlind pullFlags := by
  intro nmi irq s
  unfold Machine.pullFlags
  rw [pull_withLatches]
  rfl

theorem LatchBlind.jumpIndirect (p : Word) (n : Nat) : LatchBlind (jumpIndirect p n) := by
  intro nmi irq s
  unfold Machine.jumpIndirect jmpPointer
  simp only [cpuRead_withLatches]
  rfl

theorem LatchBlind.callSubroutine (a : Word) : LatchBlind (callSubroutine a) := by
  intro nmi irq s
  unfold Machine.callSubroutine
  dsimp only
  rw [LatchBlind.push, LatchBlind.push]
  rfl

theorem LatchBlind.returnFromSubroutine : LatchBlind returnFromSubroutine := by
  intro nmi irq s
  rw [returnFromSubroutine_eq, returnFromSubroutine_eq, byteAt_withLatches, byteAt_withLatches]
  rfl

theorem LatchBlind.returnFromInterrupt : LatchBlind returnFromInterrupt := by
  intro nmi irq s
  rw [returnFromInterrupt_eq, returnFromInterrupt_eq, byteAt_withLatches, byteAt_withLatches, byteAt_withLatches]
  rfl

theorem LatchBlind.interrupt (k : IntKind) : LatchBlind (interrupt k) := by
  intro nmi irq s
  rw [interrupt_eq, interrupt_eq, LatchBlind.push, LatchBlind.push, LatchBlind.push, byteAt_withLatches,
    byteAt_withLatches]
  rfl

theorem LatchBlind.branch (taken : Bool) (d : Byte) (n : Nat) : LatchBlind (branch taken d n) := by
  intro nmi irq s
  cases taken <;> rfl

/-- Every instruction does the same with any values in the latches. -/
theorem exec_withLatches (i : Instr) (s : State) (nmi irq : Bool) :
    exec i (withLatches nmi irq s) = withLatchesOut nmi irq (exec i s) := by
  cases i
  case ldaImm | ldaZp | ldaZpx | ldaAbs | ldaAbx | ldaAby | ldaIzx | ldaIzy | ldxImm | ldxZp | ldxZpy | ldxAbs |
    ldxAby | ldyImm | ldyZp | ldyZpx | ldyAbs | ldyAbx =>
    exact congrArg Host.Outcome.next (LatchBlind.load (fun _ _ _ _ => rfl) _ _ nmi irq s)
  case staZp | staZpx | staAbs | staAbx | staAby | staIzx | staIzy | stxZp | stxZpy | stxAbs | styZp | styZpx |
    styAbs =>
    exact congrArg Host.Outcome.next (LatchBlind.store _ _ _ nmi irq s)
  case tax | tay | txa | tya | tsx | txs | inx | iny | dex | dey | aslAcc | lsrAcc | rolAcc | rorAcc | jmpAbs | clc |
    sec | cli | sei | cld | sed | clv | nop | und =>
    rfl
  case pha | php =>
    exact congrArg Host.Outcome.next (((LatchBlind.finish 3).comp (.push _)) nmi irq s)
  case pla =>
    exact congrArg Host.Outcome.next (((LatchBlind.finish 4).comp .pullA) nmi irq s)
  case plp =>
    exact congrArg Host.Outcome.next (((LatchBlind.finish 4).comp .pullFlags) nmi irq s)
  case adcImm | adcZp | adcZpx | adcAbs | adcAbx | adcAby | adcIzx | adcIzy | sbcImm | sbcZp | sbcZpx | sbcAbs |
    sbcAbx | sbcAby | sbcIzx | sbcIzy | andImm | andZp | andZpx | andAbs | andAbx | andAby | andIzx | andIzy |
    oraImm | oraZp | oraZpx | oraAbs | oraAbx | oraAby | oraIzx | oraIzy | eorImm | eorZp | eorZpx | eorAbs |
    eorAbx | eorAby | eorIzx | eorIzy =>
    exact congrArg Host.Outcome.next (LatchBlind.accOp _ _ _ nmi irq s)
  case bitZp | bitAbs | cmpImm | cmpZp | cmpZpx | cmpAbs | cmpAbx | cmpAby | cmpIzx | cmpIzy | cpxImm | cpxZp |
    cpxAbs | cpyImm | cpyZp | cpyAbs =>
    exact congrArg Host.Outcome.next (LatchBlind.flagOp _ _ _ nmi irq s)
  case incZp | incZpx | incAbs | incAbx | decZp | decZpx | decAbs | decAbx | aslZp | aslZpx | aslAbs | aslAbx |
    lsrZp | lsrZpx | lsrAbs | lsrAbx | rolZp | rolZpx | rolAbs | rolAbx | rorZp | rorZpx | rorAbs | rorAbx =>
    exact congrArg Host.Outcome.next (LatchBlind.rmwMem _ _ _ nmi irq s)
  case jmpInd =>
    exact congrArg Host.Outcome.next (LatchBlind.jumpIndirect _ _ nmi irq s)
  case jsrAbs =>
    exact congrArg Host.Outcome.next (((LatchBlind.finish 6).comp (.callSubroutine _)) nmi irq s)
  case rts =>
    exact congrArg Host.Outcome.next (((LatchBlind.finish 6).comp .returnFromSubroutine) nmi irq s)
  case rti =>
    exact congrArg Host.Outcome.next (((LatchBlind.finish 6).comp .returnFromInterrupt) nmi irq s)
  case brk =>
    exact congrArg Host.Outcome.next (((LatchBlind.finish 7).comp (.interrupt .brk)) nmi irq (s.setPc (s.cpu.pc + 1)))
  case bccRel | bcsRel | beqRel | bneRel | bmiRel | bplRel | bvcRel | bvsRel =>
    exact congrArg Host.Outcome.next (LatchBlind.branch _ _ _ nmi irq s)

/-- An instruction leaves the latches: with them set to what they are, it does what it does. -/
theorem exec_latches {i : Instr} {s t : State} (h : exec i s = .next t) :
    t.cpu.pendNMI = s.cpu.pendNMI ∧ t.cpu.pendIRQ = s.cpu.pendIRQ := by
  have same : exec i s = withLatchesOut s.cpu.pendNMI s.cpu.pendIRQ (exec i s) :=
    exec_withLatches i s s.cpu.pendNMI s.cpu.pendIRQ
  rw [h] at same
  have kept : t = withLatches s.cpu.pendNMI s.cpu.pendIRQ t := Host.Outcome.next.inj same
  rw [kept]
  exact ⟨rfl, rfl⟩

/-- Settles O10, by the shape of each instruction: its reads, writes and register changes do not look at the latches. -/
theorem noInstructionUsesTheLatches : Obligations.NoInstructionUsesTheLatches :=
  fun i s nmi irq => ⟨exec_withLatches i s nmi irq, fun _ => exec_latches⟩

/-! ## Who writes a flag or the stack pointer -/

/-- From `f` to `f'` no flag changes but where the table of 10_state.md R23 lists `mn` as a writer of it. -/
structure FlagsListed (mn : Mnemonic) (f f' : Flags) : Prop where
  c : f'.c ≠ f.c → mn ∈ writersOfC
  z : f'.z ≠ f.z → mn ∈ writersOfZN
  n : f'.n ≠ f.n → mn ∈ writersOfZN
  i : f'.i ≠ f.i → mn ∈ writersOfI
  d : f'.d ≠ f.d → mn ∈ writersOfD
  v : f'.v ≠ f.v → mn ∈ writersOfV

/-- From `c` to `c'` no flag and no stack pointer changes but where `mn` is listed as a writer of it. -/
structure WritesListed (mn : Mnemonic) (c c' : Cpu) : Prop where
  flags : FlagsListed mn c.flags c'.flags
  sp : c'.sp ≠ c.sp → mn ∈ writersOfSp

section
variable {mn : Mnemonic}

/-- Membership in a table, by evaluating it. -/
theorem listed {l : List Mnemonic} (h : l.contains mn = true) : mn ∈ l := List.contains_iff_mem.1 h

theorem unchanged {α : Type} {a : α} {P : Prop} (h : a ≠ a) : P := absurd rfl h

theorem FlagsListed.refl (f : Flags) : FlagsListed mn f f :=
  ⟨unchanged, unchanged, unchanged, unchanged, unchanged, unchanged⟩

theorem FlagsListed.setZN (r : Byte) (f : Flags) (zn : mn ∈ writersOfZN) : FlagsListed mn f (setZN r f) :=
  { FlagsListed.refl f with z := fun _ => zn, n := fun _ => zn }

theorem FlagsListed.setZN_carry (r : Byte) (b : Bool) (f : Flags) (c : mn ∈ writersOfC) (zn : mn ∈ writersOfZN) :
    FlagsListed mn f (Machine.setZN r { f with c := b }) :=
  { FlagsListed.setZN r f zn with c := fun _ => c }

theorem FlagsListed.setZN_carry_overflow (r : Byte) (b o : Bool) (f : Flags) (c : mn ∈ writersOfC)
    (zn : mn ∈ writersOfZN) (v : mn ∈ writersOfV) : FlagsListed mn f (Machine.setZN r { f with c := b, v := o }) :=
  { FlagsListed.setZN_carry r b f c zn with v := fun _ => v }

theorem FlagsListed.bitFlags (a m : Byte) (f : Flags) (zn : mn ∈ writersOfZN) (v : mn ∈ writersOfV) :
    FlagsListed mn f (bitFlags a m f) :=
  { FlagsListed.refl f with z := fun _ => zn, n := fun _ => zn, v := fun _ => v }

/-- A mnemonic listed for every flag may write any. -/
theorem FlagsListed.all {f f' : Flags} (c : mn ∈ writersOfC) (zn : mn ∈ writersOfZN) (i : mn ∈ writersOfI)
    (d : mn ∈ writersOfD) (v : mn ∈ writersOfV) : FlagsListed mn f f' :=
  ⟨fun _ => c, fun _ => zn, fun _ => zn, fun _ => i, fun _ => d, fun _ => v⟩

/-- `set` writes neither a flag nor the stack pointer. -/
def FlagFree (set : Byte → State → State) : Prop :=
  ∀ v s, (set v s).cpu.flags = s.cpu.flags ∧ (set v s).cpu.sp = s.cpu.sp

theorem FlagFree.setA : FlagFree State.setA := fun _ _ => ⟨rfl, rfl⟩
theorem FlagFree.setX : FlagFree State.setX := fun _ _ => ⟨rfl, rfl⟩
theorem FlagFree.setY : FlagFree State.setY := fun _ _ => ⟨rfl, rfl⟩

theorem load_writesListed {set : Byte → State → State} (hset : FlagFree set) (src : Source) (n : Nat) (s : State)
    (zn : mn ∈ writersOfZN) : WritesListed mn s.cpu (load set src n s).cpu := by
  obtain ⟨flags, sp⟩ := hset (operand src s).1 (operand src s).2
  rw [operand_cpu] at flags sp
  refine ⟨?_, fun h => absurd sp h⟩
  show FlagsListed mn s.cpu.flags (setZN (operand src s).1 (set (operand src s).1 (operand src s).2).cpu.flags)
  rw [flags]
  exact .setZN _ _ zn

theorem store_writesListed (v : Byte) (m : Addr) (n : Nat) (s : State) : WritesListed mn s.cpu (store v m n s).cpu := by
  rw [store_eq]; exact ⟨.refl _, unchanged⟩

theorem accOp_writesListed {f : Byte → Byte → Flags → Byte × Flags} (src : Source) (n : Nat) (s : State)
    (h : ∀ a m fl, FlagsListed mn fl (f a m fl).2) : WritesListed mn s.cpu (accOp f src n s).cpu := by
  rw [accOp_eq]; exact ⟨h _ _ _, unchanged⟩

theorem flagOp_writesListed {f : Byte → Flags → Flags} (src : Source) (n : Nat) (s : State)
    (h : ∀ m fl, FlagsListed mn fl (f m fl)) : WritesListed mn s.cpu (flagOp f src n s).cpu := by
  rw [flagOp_eq]; exact ⟨h _ _, unchanged⟩

theorem rmwMem_writesListed {f : Byte → Flags → Byte × Flags} (m : Addr) (n : Nat) (s : State)
    (h : ∀ b fl, FlagsListed mn fl (f b fl).2) : WritesListed mn s.cpu (rmwMem f m n s).cpu := by
  rw [rmwMem_eq]; exact ⟨h _ _, unchanged⟩

theorem push_writesListed (v : Byte) (n : Nat) (s : State) (sp : mn ∈ writersOfSp) :
    WritesListed mn s.cpu ((push v s).finish n).cpu := by
  rw [push_eq]; exact ⟨.refl _, fun _ => sp⟩

theorem pullA_writesListed (n : Nat) (s : State) (zn : mn ∈ writersOfZN) (sp : mn ∈ writersOfSp) :
    WritesListed mn s.cpu ((pullA s).finish n).cpu := by
  unfold pullA
  rw [pull_eq]
  exact ⟨.setZN _ _ zn, fun _ => sp⟩

theorem callSubroutine_writesListed (a : Word) (n : Nat) (s : State) (sp : mn ∈ writersOfSp) :
    WritesListed mn s.cpu ((callSubroutine a s).finish n).cpu := by
  rw [State.finish_cpu, callSubroutine_cpu]; exact ⟨.refl _, fun _ => sp⟩

theorem returnFromSubroutine_writesListed (n : Nat) (s : State) (sp : mn ∈ writersOfSp) :
    WritesListed mn s.cpu ((returnFromSubroutine s).finish n).cpu := by
  rw [returnFromSubroutine_eq]; exact ⟨.refl _, fun _ => sp⟩

theorem interrupt_writesListed (k : IntKind) (pc : Word) (n : Nat) (s : State) (i : mn ∈ writersOfI)
    (sp : mn ∈ writersOfSp) : WritesListed mn s.cpu ((interrupt k (s.setPc pc)).finish n).cpu := by
  rw [State.finish_cpu, interrupt_cpu]
  exact ⟨{ FlagsListed.refl s.cpu.flags with i := fun _ => i }, fun _ => sp⟩

theorem jumpIndirect_writesListed (p : Word) (n : Nat) (s : State) :
    WritesListed mn s.cpu (jumpIndirect p n s).cpu := by
  have same : (jumpIndirect p n s).cpu.flags = s.cpu.flags ∧ (jumpIndirect p n s).cpu.sp = s.cpu.sp := by
    unfold jumpIndirect jmpPointer
    simp
  refine ⟨?_, fun h => absurd same.2 h⟩
  rw [same.1]; exact .refl _

theorem branch_writesListed (taken : Bool) (d : Byte) (n : Nat) (s : State) :
    WritesListed mn s.cpu (branch taken d n s).cpu := by
  cases taken <;> exact ⟨.refl _, unchanged⟩

end

theorem WritesListed.of_exec {mn : Mnemonic} {i : Instr} {s u t : State} (h : exec i s = .next t)
    (e : exec i s = .next u) (hu : WritesListed mn s.cpu u.cpu) : WritesListed mn s.cpu t.cpu := by
  obtain rfl := Host.Outcome.next.inj (e.symm.trans h)
  exact hu

/-- No instruction writes a flag or the stack pointer but where the tables list its mnemonic. -/
theorem exec_writesListed {i : Instr} {s t : State} (h : exec i s = .next t) : WritesListed i.form.1 s.cpu t.cpu := by
  cases i
  case ldaImm | ldaZp | ldaZpx | ldaAbs | ldaAbx | ldaAby | ldaIzx | ldaIzy =>
    exact .of_exec h rfl <| load_writesListed .setA _ _ s (listed rfl)
  case ldxImm | ldxZp | ldxZpy | ldxAbs | ldxAby =>
    exact .of_exec h rfl <| load_writesListed .setX _ _ s (listed rfl)
  case ldyImm | ldyZp | ldyZpx | ldyAbs | ldyAbx =>
    exact .of_exec h rfl <| load_writesListed .setY _ _ s (listed rfl)
  case staZp | staZpx | staAbs | staAbx | staAby | staIzx | staIzy | stxZp | stxZpy | stxAbs | styZp | styZpx |
    styAbs =>
    exact .of_exec h rfl <| store_writesListed _ _ _ s
  case tax | tay | txa | tya | tsx | inx | iny | dex | dey =>
    exact .of_exec h rfl ⟨.setZN _ _ (listed rfl), unchanged⟩
  case aslAcc | lsrAcc | rolAcc | rorAcc =>
    exact .of_exec h rfl ⟨.setZN_carry _ _ _ (listed rfl) (listed rfl), unchanged⟩
  case txs =>
    exact .of_exec h rfl ⟨.refl _, fun _ => listed rfl⟩
  case pha | php =>
    exact .of_exec h rfl <| push_writesListed _ _ s (listed rfl)
  case pla =>
    exact .of_exec h rfl <| pullA_writesListed _ s (listed rfl) (listed rfl)
  case plp | rti =>
    exact .of_exec h rfl
      ⟨.all (listed rfl) (listed rfl) (listed rfl) (listed rfl) (listed rfl), fun _ => listed rfl⟩
  case adcImm | adcZp | adcZpx | adcAbs | adcAbx | adcAby | adcIzx | adcIzy | sbcImm | sbcZp | sbcZpx | sbcAbs |
    sbcAbx | sbcAby | sbcIzx | sbcIzy =>
    exact .of_exec h rfl <| accOp_writesListed _ _ s fun _ _ _ =>
      .setZN_carry_overflow _ _ _ _ (listed rfl) (listed rfl) (listed rfl)
  case andImm | andZp | andZpx | andAbs | andAbx | andAby | andIzx | andIzy | oraImm | oraZp | oraZpx | oraAbs |
    oraAbx | oraAby | oraIzx | oraIzy | eorImm | eorZp | eorZpx | eorAbs | eorAbx | eorAby | eorIzx | eorIzy =>
    exact .of_exec h rfl <| accOp_writesListed _ _ s fun _ _ _ => .setZN _ _ (listed rfl)
  case bitZp | bitAbs =>
    exact .of_exec h rfl <| flagOp_writesListed _ _ s fun _ _ => .bitFlags _ _ _ (listed rfl) (listed rfl)
  case cmpImm | cmpZp | cmpZpx | cmpAbs | cmpAbx | cmpAby | cmpIzx | cmpIzy | cpxImm | cpxZp | cpxAbs | cpyImm |
    cpyZp | cpyAbs =>
    exact .of_exec h rfl <| flagOp_writesListed _ _ s fun _ _ => .setZN_carry _ _ _ (listed rfl) (listed rfl)
  case incZp | incZpx | incAbs | incAbx | decZp | decZpx | decAbs | decAbx =>
    exact .of_exec h rfl <| rmwMem_writesListed _ _ s fun _ _ => .setZN _ _ (listed rfl)
  case aslZp | aslZpx | aslAbs | aslAbx | lsrZp | lsrZpx | lsrAbs | lsrAbx | rolZp | rolZpx | rolAbs | rolAbx |
    rorZp | rorZpx | rorAbs | rorAbx =>
    exact .of_exec h rfl <| rmwMem_writesListed _ _ s fun _ _ => .setZN_carry _ _ _ (listed rfl) (listed rfl)
  case jmpInd =>
    exact .of_exec h rfl <| jumpIndirect_writesListed _ _ s
  case jsrAbs =>
    exact .of_exec h rfl <| callSubroutine_writesListed _ _ s (listed rfl)
  case rts =>
    exact .of_exec h rfl <| returnFromSubroutine_writesListed _ s (listed rfl)
  case brk =>
    exact .of_exec h rfl <| interrupt_writesListed .brk _ 7 s (listed rfl) (listed rfl)
  case bccRel | bcsRel | beqRel | bneRel | bmiRel | bplRel | bvcRel | bvsRel =>
    exact .of_exec h rfl <| branch_writesListed _ _ _ s
  case clc | sec =>
    exact .of_exec h rfl ⟨{ FlagsListed.refl s.cpu.flags with c := fun _ => listed rfl }, unchanged⟩
  case cli | sei =>
    exact .of_exec h rfl ⟨{ FlagsListed.refl s.cpu.flags with i := fun _ => listed rfl }, unchanged⟩
  case cld | sed =>
    exact .of_exec h rfl ⟨{ FlagsListed.refl s.cpu.flags with d := fun _ => listed rfl }, unchanged⟩
  case clv =>
    exact .of_exec h rfl ⟨{ FlagsListed.refl s.cpu.flags with v := fun _ => listed rfl }, unchanged⟩
  case jmpAbs | nop | und =>
    exact .of_exec h rfl ⟨.refl _, unchanged⟩

/-- Settles O17, by the shape of each instruction: its flags after it are those before it but for listed writes. -/
theorem flagAndStackWriters : Obligations.FlagAndStackWriters := by
  intro i s t h
  obtain ⟨⟨c, z, n, i, d, v⟩, sp⟩ := exec_writesListed h
  exact ⟨c, z, n, i, d, v, sp⟩

/-! ## The state after power-on and reset() -/

theorem zero_inUnit : InUnit 0 := ⟨Rat.le_refl, by decide⟩

theorem zero_inRange : InRange 0 := ⟨by decide, by decide⟩

/-- Reset leaves the audio unit well formed at any volume in range. -/
theorem resetApu_ok {p : Params} {master : Rat} (on : Bool) (period : 0 < p.qfPeriod)
    (h : 0 ≤ master ∧ master ≤ 1) : ApuOk p (resetApu master on) where
  pulse0 := ⟨.inl ⟨rfl, rfl⟩, zero_inUnit⟩
  pulse1 := ⟨.inl ⟨rfl, rfl⟩, zero_inUnit⟩
  tri := ⟨.inl ⟨rfl, rfl⟩, zero_inUnit⟩
  noise := ⟨.inl rfl, (by decide : (1 : BitVec 15) ≠ 0), zero_inUnit⟩
  seqCount := period
  seqStep := seqLength_pos false
  samples := fun _ hy => nomatch hy
  capped := Nat.zero_le _
  yPrev := zero_inRange
  master := h

theorem resetPpu_ok : PpuOk resetPpu :=
  ⟨by decide, by decide, .nil _ _, .nil _ _, .nil, .nil⟩

theorem powerOnLive_ok {cfg : Config} (pc : Word) (period : 0 < cfg.params.qfPeriod) :
    LiveOk cfg (powerOnLive cfg.cart pc) where
  ram := .nil _ _
  vram := .nil _ _
  palette := .nil _ _
  prgRam := .nil _ _
  chrRam := .nil _ _
  noPrgRam := fun _ => rfl
  noChrRam := fun _ => rfl
  ppu := resetPpu_ok
  apu := resetApu_ok true period ⟨by decide, Rat.le_refl⟩
  mapper := ⟨Nat.zero_lt_succ 4, Nat.zero_lt_succ 0⟩
  dmaStall := rfl

/-- The program counter that power-on loads: the word at 0xFFFC of the cartridge. -/
def powerOnPc (cfg : Config) : Word :=
  word (byteAt (State.powerOn cfg 0) 0xFFFD) (byteAt (State.powerOn cfg 0) 0xFFFC)

/-- `powerOnState` primes the program counter of the power-on values and nothing else. -/
theorem powerOnState_eq (cfg : Config) : powerOnState cfg = State.powerOn cfg (powerOnPc cfg) := by
  unfold powerOnState
  rw [primePc_eq]
  rfl

theorem powerOnState_inv {cfg : Config} (period : 0 < cfg.params.qfPeriod) (cycles : 0 < cfg.params.cyclesPerFrame) :
    Inv (powerOnState cfg) := by
  rw [powerOnState_eq]
  exact ⟨period, cycles, powerOnLive_ok _ period, powerOnLive_ok _ period⟩

/-- A machine that `construct` makes is a power-on state. -/
theorem construct_powerOn {p : Params} {irq : List Nat} {r : CartRecord} {t : State}
    (h : construct p irq r = .next t) : ∃ cart, t = powerOnState { params := p, cart := cart, irqIn := irq } := by
  unfold construct at h
  split at h
  · cases h
  · next cart _ => exact ⟨cart, (Host.Outcome.next.inj h).symm⟩

/-- `reset()` reads the program counter from memory, which putting the three units at their values does not change. -/
theorem hostReset_eq (s : State) : hostReset s = { s with
    cpu := resetCpu (word (byteAt s 0xFFFD) (byteAt s 0xFFFC)), ppu := resetPpu
    apu := resetApu s.apu.master s.apu.audioEnabled } := by
  have kept : MemoryKept s { s with
      cpu := resetCpu s.cpu.pc, ppu := resetPpu, apu := resetApu s.apu.master s.apu.audioEnabled } :=
    byteAt_congr rfl rfl rfl rfl
  unfold hostReset
  rw [primePc_eq, kept 0xFFFD (by decide), kept 0xFFFC (by decide)]
  rfl

/-- Settles O12: the power-on values meet the conditions of the invariant, with any program counter. -/
theorem resetMeetsInvariant : Obligations.ResetMeetsInvariant := by
  have reset : State.reset = powerOnState blankConfig := Laws.construct_blank.symm
  refine ⟨fun _ period cycles => powerOnState_inv period cycles, fun p irq r t period cycles made => ?_, reset, ?_⟩
  · obtain ⟨cart, rfl⟩ := construct_powerOn made
    exact powerOnState_inv period cycles
  · rw [reset]
    exact powerOnState_inv (by decide) (by decide)

/-- Settles O58: power-on and reset() put the values of the tables and prime the program counter from memory. -/
theorem powerOnAndResetValues : Obligations.PowerOnAndResetValues := by
  refine ⟨fun cfg => ?_, hostReset_eq, fun _ _ => rfl, rfl, fun _ _ => rfl, fun _ => rfl⟩
  have kept : MemoryKept (State.powerOn cfg 0) (powerOnState cfg) := by
    rw [powerOnState_eq]; exact byteAt_congr rfl rfl rfl rfl
  refine ⟨powerOnPc cfg, ?_, ?_⟩
  · rw [powerOnState_eq]; rfl
  · rw [kept 0xFFFD (by decide), kept 0xFFFC (by decide)]; rfl

end Sys2Proof.Machine

/-! # The two buses (20_memory.md) -/

namespace Sys2Proof.Machine

open Sys2Proof.Claims

/-! ## One rule for each row of the CPU bus's decode table (R71) -/

/-- A read that is not on the list of R81 returns its byte and changes nothing. -/
theorem cpuRead_eq_byteAt {a : Word} (quiet : hasReadEffect a = false) (s : State) : cpuRead a s = (byteAt s a, s) :=
  Prod.ext rfl (cpuRead_quiet quiet s)

theorem cpuRead_workRam {a : Word} (h : a < 0x2000) (s : State) : cpuRead a s = (s.ram.read (a.toNat % 2048), s) := by
  rw [cpuRead_eq_byteAt (isMemory_quiet (isMemory_ram h)), byteAt_ram h, ramIndex]

theorem cpuWrite_workRam {a : Word} (h : a < 0x2000) (v : Byte) (s : State) :
    cpuWrite a v s = { s with ram := s.ram.write (a &&& 0x07FF).toNat v } := by
  rw [cpuWrite, if_pos h]

theorem cpuRead_ppuWindow {a : Word} (low : 0x2000 ≤ a) (high : a < 0x4000) (s : State) :
    cpuRead a s = ppuReadReg (field a 0 3) s := by
  rw [cpuRead, if_neg (by bv_omega), if_pos high]

theorem cpuRead_unmapped {a : Word} (h : (0x4000 ≤ a ∧ a < 0x4015) ∨ (0x4018 ≤ a ∧ a < 0x6000)) (s : State) :
    cpuRead a s = (0, s) := by
  rw [cpuRead, if_neg (by bv_omega), if_neg (by bv_omega), if_neg (by bv_omega), if_neg (by bv_omega),
    if_neg (by bv_omega), if_pos (by bv_omega)]

theorem cpuWrite_unmapped {a : Word} (low : 0x4018 ≤ a) (high : a < 0x6000) (v : Byte) (s : State) :
    cpuWrite a v s = s := by
  rw [cpuWrite, if_neg (by bv_omega), if_neg (by bv_omega), if_neg (by bv_omega), if_neg (by bv_omega),
    if_neg (by bv_omega), if_pos high]

/-- The offset of an address of the PRG RAM window, as a difference. -/
theorem prgRamOffset_eq_sub {a : Word} (low : 0x6000 ≤ a) (high : a < 0x8000) : prgRamOffset a = a.toNat - 0x6000 := by
  rw [prgRamOffset_eq]
  bv_omega

theorem cpuRead_prgRamWindow {a : Word} (low : 0x6000 ≤ a) (high : a < 0x8000) (s : State) :
    cpuRead a s = (if s.cfg.cart.hasPrgRam then s.prgRam.read (a.toNat - 0x6000) else 0, s) := by
  rw [cpuRead_eq_byteAt (isMemory_quiet (isMemory_high low)), byteAt_prgRam low high, prgRamOffset_eq_sub low high]

theorem cpuWrite_prgRamWindow {a : Word} (low : 0x6000 ≤ a) (high : a < 0x8000) (v : Byte) (s : State) :
    cpuWrite a v s =
      if s.cfg.cart.hasPrgRam then { s with prgRam := s.prgRam.write (prgRamOffset a) v } else s := by
  rw [cpuWrite, if_neg (by bv_omega), if_neg (by bv_omega), if_neg (by bv_omega), if_neg (by bv_omega),
    if_neg (by bv_omega), if_neg (by bv_omega), if_pos high]

/-! ## The registers whose read is named in R74, R75, R80 and R81 -/

/-- The write-only registers of the picture unit read 0 (R74). -/
theorem ppuReadReg_writeOnly {r : BitVec 3} (h : r.toNat ∈ [0, 1, 3, 5, 6]) (s : State) : ppuReadReg r s = (0, s) := by
  simp only [List.mem_cons, List.not_mem_nil, or_false] at h
  unfold ppuReadReg
  rcases h with h | h | h | h | h <;> rw [h] <;> rfl

/-- The picture bus looks at the low 14 bits of an address (R100). -/
theorem pictureAddr_toNat (a : Word) : (a &&& 0x3FFF).toNat = a.toNat % 16384 := by
  rw [BitVec.toNat_and]
  exact Nat.and_two_pow_sub_one_eq_mod a.toNat 14

/-- The picture address in v is its low 14 bits, as a number. -/
theorem ppuAddr_eq (p : Ppu) : p.addr = BitVec.ofNat 16 (p.v.toNat % 16384) := by
  apply BitVec.eq_of_toNat_eq
  rw [Ppu.addr, pictureAddr_toNat, BitVec.toNat_setWidth, BitVec.toNat_ofNat]
  omega

/-- A PPUDATA read refills the buffer from v, or from the nametable byte under a palette address, and advances v. -/
theorem readData_state (s : State) : (readData s).2 = { s with ppu := { s.ppu with
    v := s.ppu.v + (if s.ppu.ctrl.getLsbD 2 then 32 else 1)
    readBuf := ppuRead s (if s.ppu.addr < 0x3F00 then s.ppu.addr else s.ppu.addr - 0x1000) } } := by
  unfold readData
  by_cases h : s.ppu.addr < 0x3F00
  · rw [if_pos h, if_pos h]; rfl
  · rw [if_neg h, if_neg h]; rfl

/-- A controller register after a read, in numbers. -/
theorem padShift_eq (r : Byte) : padShift r = BitVec.ofNat 8 (r.toNat / 2 + 128) := by
  revert r; decide +kernel

theorem readPad0_state (s : State) : (readPad0 s).2 = if s.pads.strobe then s else
    { s with pads := { s.pads with shift0 := BitVec.ofNat 8 (s.pads.shift0.toNat / 2 + 128) } } := by
  rw [readPad0, ← padShift_eq]
  split <;> rfl

theorem readPad1_state (s : State) : (readPad1 s).2 = if s.pads.strobe then s else
    { s with pads := { s.pads with shift1 := BitVec.ofNat 8 (s.pads.shift1.toNat / 2 + 128) } } := by
  rw [readPad1, ← padShift_eq]
  split <;> rfl

/-- Settles O39, by the register that each address on the list names. -/
theorem readSideEffects : Obligations.ReadSideEffects := by
  intro a s
  refine ⟨fun quiet => cpuRead_quiet quiet s, fun low high reg => ?_, fun low high reg => ?_, ?_, ?_⟩
  · rw [cpuRead_ppuWindow low high, ppuReadReg, field_low3, reg]
    rfl
  · rw [cpuRead_ppuWindow low high, ppuReadReg, field_low3, reg, ← ppuAddr_eq]
    exact readData_state s
  · rintro rfl
    exact readPad0_state s
  · rintro rfl
    exact readPad1_state s

/-- Settles O40: the frame of a write and its effect on the CPU are those of every row of the decode table. -/
theorem writeReachesOneUnit : Obligations.WriteReachesOneUnit := fun a v s ram prgRam =>
  ⟨cpuWrite_frame a v s ram prgRam, cpuWrite_cpu a v s, fun low high => cpuWrite_unmapped low high v s⟩

/-! ## Memory below the ROM window -/

/-- Two addresses of work RAM name the same cell when they agree modulo its size (R72). -/
theorem sameCell_workRam {a b : Word} (ha : a < 0x2000) (hb : b < 0x2000) :
    sameCell a b = decide (a.toNat % 2048 = b.toNat % 2048) := by
  rw [sameCell, if_pos ha, decide_eq_true hb, Bool.true_and, Bool.eq_iff_iff, beq_iff_eq, decide_eq_true_eq,
    ← BitVec.toNat_inj, ramIndex, ramIndex]

theorem byteAt_cpuWrite_workRam {a b : Word} (ha : a < 0x2000) (hb : b < 0x2000) (v : Byte) {s : State}
    (wf : s.ram.wf = true) :
    byteAt (cpuWrite a v s) b = if a.toNat % 2048 = b.toNat % 2048 then v else byteAt s b := by
  rw [cpuWrite_workRam ha, byteAt_writeRam ha v s wf (isMemory_ram hb), sameCell_workRam ha hb]
  simp only [decide_eq_true_eq]

theorem byteAt_cpuWrite_prgRam {a b : Word} (low : 0x6000 ≤ a) (high : a < 0x8000) (hb : 0x6000 ≤ b) (v : Byte)
    {s : State} (wf : s.prgRam.wf = true) (has : s.cfg.cart.hasPrgRam = true) :
    byteAt (cpuWrite a v s) b = if a = b then v else byteAt s b := by
  rw [cpuWrite_prgRamWindow low high, if_pos has, byteAt_writePrgRam low high v s wf has (isMemory_high hb), sameCell,
    if_neg (show ¬ a < 0x2000 by bv_omega)]
  simp only [beq_iff_eq]

/-- Settles O41, range by range. -/
theorem cpuMemoryMap : Obligations.CpuMemoryMap := by
  intro a b v s ramWf prgWf
  refine ⟨fun h => ⟨cpuRead_workRam h s, fun hb => byteAt_cpuWrite_workRam h hb v ramWf⟩, fun low high reg => ?_,
    fun h => cpuRead_unmapped h s, fun low high has => ⟨?_, fun hb _ => byteAt_cpuWrite_prgRam low high hb v prgWf has⟩,
    fun low high none => ⟨?_, ?_⟩⟩
  · rw [cpuRead_ppuWindow low high, ppuReadReg_writeOnly (by rwa [field_low3])]
  · rw [cpuRead_prgRamWindow low high, if_pos has]
  · rw [cpuRead_prgRamWindow low high, none]
    rfl
  · rw [cpuWrite_prgRamWindow low high, none]
    rfl

/-! ## OAM DMA from a page of memory (R93) -/

/-- Storing a byte in OAM keeps all memory. -/
theorem oamStore_memoryKept (k b : Byte) (s : State) : MemoryKept s (oamStore k b s) := byteAt_congr rfl rfl rfl rfl

section
variable {page : Byte} (mem : ∀ i : Byte, isMemory (word page i) = true)
include mem

/-- From a page of memory one copy reads without a side effect. -/
theorem dmaCopy_succ_memory (n : Nat) (i : Byte) (s : State) : dmaCopy page (n + 1) i s =
    dmaCopy page n (i + 1) (oamStore (s.ppu.oamaddr + i) (byteAt s (word page i)) s) := by
  rw [dmaCopy_succ, cpuRead_memory (mem i)]
  rfl

/-- From a page of memory the copies change OAM only. -/
theorem dmaCopy_memory_eq (n : Nat) (i : Byte) (s : State) : dmaCopy page n i s =
    { s with ppu := { s.ppu with oam := (dmaCopy page n i s).ppu.oam } } := by
  induction n generalizing i s with
  | zero => rfl
  | succ n ih =>
    rw [dmaCopy_succ_memory mem, ih]
    rfl

/-- Of `n` copies from byte `i` of the page on, OAM holds the bytes `i` to `i + n - 1`, each at its place from
`oamaddr`, and is otherwise as before. -/
theorem dmaCopy_oam_read (n : Nat) (fits : n ≤ 256) (i k : Byte) (s : State) (wf : s.ppu.oam.wf = true) :
    (dmaCopy page n i s).ppu.oam.read (s.ppu.oamaddr + k).toNat =
      if (k - i).toNat < n then byteAt s (word page k) else s.ppu.oam.read (s.ppu.oamaddr + k).toNat := by
  induction n generalizing i s with
  | zero => rfl
  | succ n ih =>
    have rest := ih (by omega) (i + 1) (oamStore (s.ppu.oamaddr + i) (byteAt s (word page i)) s)
      (Memory.wf_write _ _ wf)
    rw [dmaCopy_succ_memory mem]
    refine rest.trans ?_
    rw [oamStore_memoryKept _ _ s (word page k) (mem k)]
    by_cases first : k = i
    · subst first
      rw [if_neg (by bv_omega), if_pos (by bv_omega)]
      exact Memory.read_write_same wf _ _
    · have later : ((k - (i + 1)).toNat < n) ↔ ((k - i).toNat < n + 1) := by bv_omega
      have other : (s.ppu.oamaddr + k).toNat ≠ (s.ppu.oamaddr + i).toNat := by bv_omega
      simp only [later, oamStore, Memory.read_write_ne wf _ other]

end

/-- Settles O42: the 256 copies from byte 0 on fill all of OAM. -/
theorem oamDmaCopiesAPage : Obligations.OamDmaCopiesAPage := by
  intro page s wf mem
  have dma : cpuWrite 0x4014 page s = oamDma page s := rfl
  dsimp only
  rw [dma]
  constructor
  · intro i
    have read := dmaCopy_oam_read mem 256 (Nat.le_refl _) 0 i s wf
    rwa [if_pos (i - 0).isLt] at read
  · unfold oamDma
    dsimp only
    rw [dmaCopy_memory_eq mem]
    rfl

/-! ## The picture bus (R100 to R107) -/

theorem pictureAddr_of_lt {a : Word} (h : a < 0x4000) : (a &&& 0x3FFF).toNat = a.toNat := by
  rw [pictureAddr_toNat]
  exact Nat.mod_eq_of_lt (by bv_omega)

theorem ppuRead_congr {a b : Word} (h : a.toNat % 16384 = b.toNat % 16384) (s : State) : ppuRead s a = ppuRead s b := by
  simp only [ppuRead, pictureAddr_toNat, h]

section
variable {a : Word}

theorem ppuRead_nametable (low : 0x2000 ≤ a) (high : a < 0x3F00) (s : State) :
    ppuRead s a = s.vram.read (ntIndex s.mirroring a.toNat) := by
  simp only [ppuRead, pictureAddr_of_lt (show a < 0x4000 by bv_omega)]
  rw [if_neg (by bv_omega), if_pos (by bv_omega)]

theorem ppuWrite_nametable (low : 0x2000 ≤ a) (high : a < 0x3F00) (d : Byte) (s : State) :
    ppuWrite a d s = { s with vram := s.vram.write (ntIndex s.mirroring a.toNat) d } := by
  simp only [ppuWrite, pictureAddr_of_lt (show a < 0x4000 by bv_omega)]
  rw [if_neg (by bv_omega), if_pos (by bv_omega)]

theorem ppuRead_palette (low : 0x3F00 ≤ a) (high : a < 0x4000) (s : State) :
    ppuRead s a = s.palette.read (palIndex a.toNat) := by
  simp only [ppuRead, pictureAddr_of_lt high]
  rw [if_neg (by bv_omega), if_neg (by bv_omega)]

theorem ppuWrite_palette (low : 0x3F00 ≤ a) (high : a < 0x4000) (d : Byte) (s : State) :
    ppuWrite a d s = { s with palette := s.palette.write (palIndex a.toNat) d } := by
  simp only [ppuWrite, pictureAddr_of_lt high]
  rw [if_neg (by bv_omega), if_neg (by bv_omega)]

/-- A palette byte is read back through every name of its cell. -/
theorem ppuRead_ppuWrite_palette {b : Word} (lowA : 0x3F00 ≤ a) (highA : a < 0x4000) (lowB : 0x3F00 ≤ b)
    (highB : b < 0x4000) (sameByte : palIndex b.toNat = palIndex a.toNat) (d : Byte) {s : State}
    (wf : s.palette.wf = true) : ppuRead (ppuWrite a d s) b = d := by
  rw [ppuWrite_palette lowA highA, ppuRead_palette lowB highB, sameByte]
  exact Memory.read_write_same wf _ _

end

theorem State.mirroring_eq (s : State) :
    s.mirroring = if s.cfg.cart.mapperId = .m1 then s.mapper.mirror else s.cfg.cart.mirroring := by
  unfold State.mirroring
  cases s.cfg.cart.mapperId <;> rfl

/-- The page map of R103 as a table. -/
theorem ntPage_eq_nametablePages (m : Mirroring) {n : Nat} (h : n < 4) : ntPage m n = (nametablePages m).getD n 0 := by
  have values : n = 0 ∨ n = 1 ∨ n = 2 ∨ n = 3 := by omega
  rcases values with rfl | rfl | rfl | rfl <;> cases m <;> rfl

/-- Cell `i` of logical nametable `n` is cell `i` of its page. -/
theorem ntIndex_logical (m : Mirroring) {n i : Nat} (hn : n < 4) (hi : i < 1024) :
    ntIndex m (0x2000 + 1024 * n + i) = 1024 * (nametablePages m).getD n 0 + i := by
  have offset : (0x2000 + 1024 * n + i) % 0x1000 = 1024 * n + i := by omega
  have table : (1024 * n + i) / 1024 = n := by omega
  have cell : (1024 * n + i) % 1024 = i := by omega
  simp only [ntIndex, offset, table, cell, ntPage_eq_nametablePages m hn]
  omega

/-- The nametables repeat every 0x1000 bytes (R102). -/
theorem ntIndex_add_mirror (m : Mirroring) (a : Nat) : ntIndex m (a + 0x1000) = ntIndex m a := by
  simp only [ntIndex, Nat.add_mod_right]

/-- The palette repeats every 32 bytes (R104). -/
theorem palIndex_add_mirror (a : Nat) : palIndex (a + 32) = palIndex a := by
  simp only [palIndex, Nat.add_mod_right]

/-- The entries 0x10, 0x14, 0x18, 0x1C are the bytes 0, 4, 8, 12 (R104). -/
theorem palIndex_add_backdrop {a : Nat} (low : a % 32 < 16) (backdrop : a % 4 = 0) : palIndex (a + 16) = palIndex a := by
  simp only [palIndex]
  rw [if_pos (by omega), if_neg (by omega)]
  omega

/-- Settles O47, clause by clause: each says that two addresses name one index of the same memory. -/
theorem pictureBusMirrors : Obligations.PictureBusMirrors := by
  intro s a d
  refine ⟨fun n i hn hi => ?_, fun k hk => ppuRead_congr ?_ s, fun low high => ?_, fun low high => ?_,
    fun wf low high backdrop => ?_⟩
  · have number : (BitVec.ofNat 16 (0x2000 + 1024 * n + i)).toNat = 0x2000 + 1024 * n + i :=
      (BitVec.toNat_ofNat ..).trans (Nat.mod_eq_of_lt (by omega))
    have index := ntIndex_logical s.mirroring hn hi
    rw [← number, State.mirroring_eq] at index
    have low : 0x2000 ≤ BitVec.ofNat 16 (0x2000 + 1024 * n + i) := by bv_omega
    have high : BitVec.ofNat 16 (0x2000 + 1024 * n + i) < 0x3F00 := by bv_omega
    rw [ppuRead_nametable low high, ppuWrite_nametable low high, State.mirroring_eq, index]
    exact ⟨rfl, rfl⟩
  · rw [BitVec.toNat_ofNat]
    omega
  · have sum : (a + 0x1000).toNat = a.toNat + 0x1000 := by bv_omega
    rw [ppuRead_nametable (by bv_omega) (by bv_omega), ppuRead_nametable low (by bv_omega), sum, ntIndex_add_mirror]
  · have sum : (a + 32).toNat = a.toNat + 32 := by bv_omega
    rw [ppuRead_palette (by bv_omega) (by bv_omega), ppuRead_palette low (by bv_omega), sum, palIndex_add_mirror]
  · have sum : (a + 16).toNat = a.toNat + 16 := by bv_omega
    have sameByte : palIndex (a + 16).toNat = palIndex a.toNat := by
      rw [sum, palIndex_add_backdrop (by bv_omega) backdrop]
    exact ⟨ppuRead_ppuWrite_palette (by bv_omega) (by bv_omega) low (by bv_omega) sameByte.symm d wf,
      ppuRead_ppuWrite_palette low (by bv_omega) (by bv_omega) (by bv_omega) sameByte d wf⟩

end Sys2Proof.Machine

/-! # The encoding (30_encoding.md) -/

namespace Sys2Proof

open Laws

/-! ## What the decoder reads, by the length that the opcode byte fixes (R120) -/

theorem decode_one {op : Byte} (length : instrLength op = 1) (rest : List Byte) :
    decode (op :: rest) = .ok (decodeBytes op 0 0, rest) := by
  simp only [decode, length, if_true]

theorem decode_two {op : Byte} (length : instrLength op = 2) (b : Byte) (rest : List Byte) :
    decode (op :: b :: rest) = .ok (decodeBytes op b 0, rest) := by
  simp only [decode, length, Nat.reduceEqDiff, if_true, if_false]

theorem decode_three {op : Byte} (length : instrLength op = 3) (b1 b2 : Byte) (rest : List Byte) :
    decode (op :: b1 :: b2 :: rest) = .ok (decodeBytes op b1 b2, rest) := by
  simp only [decode, length, Nat.reduceEqDiff, if_false]

/-- The operand word of a three-byte row of the matrix comes back from its two bytes, low byte first (R122). -/
theorem decode_word {op : Byte} {row : Word → Instr} (length : instrLength op = 3)
    (matrix : ∀ b1 b2, decodeBytes op b1 b2 = row (wordOf b1 b2)) (a : Word) (rest : List Byte) :
    decode (op :: loByte a :: hiByte a :: rest) = .ok (row a, rest) := by
  rw [decode_three length, matrix, wordOf_loByte_hiByte]

/-! ## The round trip -/

theorem decodeBytes_zero_undefined : ∀ op ∈ undefinedOpcodes, decodeBytes op 0 0 = .und op := by
  decide +kernel

theorem wf_und {op : Byte} : (Instr.und op).wf = true ↔ op ∈ undefinedOpcodes := List.contains_iff_mem

/-- The decoder gives back a well-formed instruction from its bytes, by the number of its operand bytes. -/
theorem decode_encode {i : Instr} (wf : i.wf = true) (rest : List Byte) :
    decode (encode i ++ rest) = .ok (i, rest) := by
  cases i
  case tax | tay | txa | tya | tsx | txs | pha | php | pla | plp | inx | iny | dex | dey | aslAcc | lsrAcc |
    rolAcc | rorAcc | rts | rti | brk | clc | sec | cli | sei | cld | sed | clv | nop =>
    exact decode_one rfl rest
  case ldaImm | ldaZp | ldaZpx | ldaIzx | ldaIzy | ldxImm | ldxZp | ldxZpy | ldyImm | ldyZp | ldyZpx | staZp |
    staZpx | staIzx | staIzy | stxZp | stxZpy | styZp | styZpx | adcImm | adcZp | adcZpx | adcIzx | adcIzy |
    sbcImm | sbcZp | sbcZpx | sbcIzx | sbcIzy | andImm | andZp | andZpx | andIzx | andIzy | oraImm | oraZp |
    oraZpx | oraIzx | oraIzy | eorImm | eorZp | eorZpx | eorIzx | eorIzy | bitZp | cmpImm | cmpZp | cmpZpx |
    cmpIzx | cmpIzy | cpxImm | cpxZp | cpyImm | cpyZp | incZp | incZpx | decZp | decZpx | aslZp | aslZpx | lsrZp |
    lsrZpx | rolZp | rolZpx | rorZp | rorZpx | bccRel | bcsRel | beqRel | bneRel | bmiRel | bplRel | bvcRel |
    bvsRel =>
    exact decode_two rfl _ rest
  case ldaAbs | ldaAbx | ldaAby | ldxAbs | ldxAby | ldyAbs | ldyAbx | staAbs | staAbx | staAby | stxAbs | styAbs |
    adcAbs | adcAbx | adcAby | sbcAbs | sbcAbx | sbcAby | andAbs | andAbx | andAby | oraAbs | oraAbx | oraAby |
    eorAbs | eorAbx | eorAby | bitAbs | cmpAbs | cmpAbx | cmpAby | cpxAbs | cpyAbs | incAbs | incAbx | decAbs |
    decAbx | aslAbs | aslAbx | lsrAbs | lsrAbx | rolAbs | rolAbx | rorAbs | rorAbx | jmpAbs | jmpInd | jsrAbs =>
    exact decode_word rfl (fun _ _ => rfl) _ rest
  case und op =>
    have listed := wf_und.1 wf
    rw [encode, List.singleton_append, decode_one (OpcodeRow.length_undefined op listed),
      decodeBytes_zero_undefined op listed]

/-- Settles O1, by the number of operand bytes; the word of a three-byte row is put together again from its halves. -/
theorem decodeEncodeRoundTrip : Obligations.DecodeEncodeRoundTrip :=
  fun _ rest wf => decode_encode wf rest

/-- Different well-formed instructions have different bytes. -/
theorem encode_injective {i j : Instr} (hi : i.wf = true) (hj : j.wf = true) (same : encode i = encode j) : i = j := by
  have decoded := decode_encode hi []
  rw [same, decode_encode hj []] at decoded
  cases decoded
  rfl

/-! ## The decoder is total (R130) -/

/-- What the decoder answers for an opcode byte of length `n`: a well-formed instruction of that length, whose bytes are
the first `n`. -/
theorem decodeBytes_of_length {op : Byte} {n : Nat} (h : instrLength op = n) (b1 b2 : Byte) :
    (decodeBytes op b1 b2).wf = true ∧ (decodeBytes op b1 b2).length = n ∧
      encode (decodeBytes op b1 b2) = [op, b1, b2].take n := by
  obtain ⟨bytes, length, wf⟩ := decodeBytes_spec op b1 b2
  rw [length, h] at bytes
  exact ⟨wf, length.trans h, bytes⟩

/-- Settles O2, by the length that the opcode byte fixes. -/
theorem decoderIsTotal : Obligations.DecoderIsTotal := by
  intro op b1 b2 tail
  rcases instrLength_bounds op with one | two | three
  · obtain ⟨wf, length, bytes⟩ := decodeBytes_of_length one 0 0
    exact ⟨_, _, decode_one one _, wf, .inl length, by rw [bytes]; rfl⟩
  · obtain ⟨wf, length, bytes⟩ := decodeBytes_of_length two b1 0
    exact ⟨_, _, decode_two two b1 _, wf, .inr (.inl length), by rw [bytes]; rfl⟩
  · obtain ⟨wf, length, bytes⟩ := decodeBytes_of_length three b1 b2
    exact ⟨_, _, decode_three three b1 b2 _, wf, .inr (.inr length), by rw [bytes]; rfl⟩

/-! ## The undefined opcode bytes (R128, R241) -/

/-- A listed byte decodes as UND whatever follows it: the answer and UND are well formed and have that one byte. -/
theorem decodeBytes_undefined {op : Byte} (listed : op ∈ undefinedOpcodes) (b1 b2 : Byte) :
    decodeBytes op b1 b2 = .und op := by
  obtain ⟨wf, -, bytes⟩ := decodeBytes_of_length (OpcodeRow.length_undefined op listed) b1 b2
  exact encode_injective wf (wf_und.2 listed) bytes

theorem eq_und_of_form {i : Instr} (h : i.form.1 = .UND) : ∃ op, i = .und op := by
  cases i with
  | und op => exact ⟨op, rfl⟩
  | _ => cases h

/-- UND comes from a listed byte only: the answer is well formed and its byte is the one decoded. -/
theorem undefined_of_decodeBytes_form {op b1 b2 : Byte} (h : (decodeBytes op b1 b2).form.1 = .UND) :
    op ∈ undefinedOpcodes := by
  obtain ⟨byte, answer⟩ := eq_und_of_form h
  obtain ⟨bytes, -, wf⟩ := decodeBytes_spec op b1 b2
  rw [answer] at bytes wf
  obtain rfl : byte = op := (List.cons.inj bytes).1
  exact wf_und.1 wf

/-- Settles O3: a listed byte decodes as UND, whose mnemonic no other byte gives. -/
theorem undefinedBytesDecodeToUnd : Obligations.UndefinedBytesDecodeToUnd := by
  refine ⟨rfl, by decide +kernel, fun op b1 b2 =>
    ⟨⟨fun answer => ?_, fun listed => ?_⟩, ⟨?_, fun listed => ?_⟩, ?_⟩⟩
  · exact undefined_of_decodeBytes_form (by rw [answer]; rfl)
  · exact decodeBytes_undefined listed b1 b2
  · exact undefined_of_decodeBytes_form
  · rw [decodeBytes_undefined listed]; rfl
  · exact OpcodeRow.length_undefined op

/-! ## The words of the assembler table (R131) -/

/-- Settles O4: each word is the encoding of its instruction, and the two short lists end before theirs does. -/
theorem specWordsDecode : Obligations.SpecWordsDecode :=
  ⟨decode_encode (i := .clc) rfl [], decode_encode (i := .aslAcc) rfl [], decode_encode (i := .ldaImm 0x10) rfl [],
    decode_encode (i := .ldaZp 0x10) rfl [], decode_encode (i := .ldaZpx 0x10) rfl [],
    decode_encode (i := .ldxZpy 0x10) rfl [], decode_encode (i := .ldaAbs 0x1234) rfl [],
    decode_encode (i := .ldaAbx 0x1234) rfl [], decode_encode (i := .ldaAby 0x1234) rfl [],
    decode_encode (i := .jmpInd 0x1234) rfl [], decode_encode (i := .ldaIzx 0x10) rfl [],
    decode_encode (i := .ldaIzy 0x10) rfl [], decode_encode (i := .bneRel 0xFB) rfl [],
    decode_encode (i := .und 0x02) (by decide) [], rfl, rfl⟩

end Sys2Proof

/-! # The machine cycle, fetching and addressing (40_cpu_step_addressing.md) -/

namespace Sys2Proof.Machine

open Sys2Proof.Claims

/-! ## Fetching (R143) -/

theorem add_one_add_one (a : Word) : a + 1 + 1 = a + 2 := BitVec.add_assoc ..

theorem add_one_add_one_add_one (a : Word) : a + 1 + 1 + 1 = a + 3 := by
  rw [add_one_add_one]
  exact BitVec.add_assoc ..

/-- Reads at addresses that are not on the list of R81 leave the state as it is. -/
theorem readsFrom_quiet : ∀ (n : Nat) (a : Word) (s : State),
    (∀ k, k < n → hasReadEffect (a + BitVec.ofNat 16 k) = false) → readsFrom n a s = s
  | 0, _, _, _ => rfl
  | n + 1, a, s, quiet => by
    have first : hasReadEffect a = false := by simpa using quiet 0 n.succ_pos
    have others : ∀ k, k < n → hasReadEffect (a + 1 + BitVec.ofNat 16 k) = false := fun k lt => by
      have shift : a + 1 + BitVec.ofNat 16 k = a + BitVec.ofNat 16 (k + 1) := by
        rw [BitVec.ofNat_add, BitVec.add_assoc, BitVec.add_comm 1]
        rfl
      rw [shift]
      exact quiet (k + 1) (Nat.succ_lt_succ lt)
    rw [readsFrom, cpuRead_quiet first]
    exact readsFrom_quiet n (a + 1) s others

@[simp] theorem readsFrom_cpu : ∀ (n : Nat) (a : Word) (s : State), (readsFrom n a s).cpu = s.cpu
  | 0, _, _ => rfl
  | n + 1, a, s => by rw [readsFrom, readsFrom_cpu n, cpuRead_cpu]

/-- Fetching decodes the opcode byte with as many of the bytes after it as its length asks for, each seen after the
reads before it, and leaves the state of those reads with PC behind them. -/
theorem fetchInstr_reads (s : State) :
    let s1 := (cpuRead s.cpu.pc s).2
    let s2 := (cpuRead (s.cpu.pc + 1) s1).2
    let op := byteAt s s.cpu.pc
    let n := instrLength op
    ∃ b1 b2, (fetchInstr s).1 = decodeBytes op b1 b2 ∧
      [op, b1, b2].take n = [op, byteAt s1 (s.cpu.pc + 1), byteAt s2 (s.cpu.pc + 2)].take n ∧
      (fetchInstr s).2 = (readsFrom n s.cpu.pc s).setPc (s.cpu.pc + BitVec.ofNat 16 n) := by
  intro s1 s2 op n
  rcases instrLength_bounds op with one | two | three
  · exact ⟨0, 0, by rw [fetchInstr_one one], by rw [show n = 1 from one]; rfl, by
      rw [fetchInstr_one one, show n = 1 from one]; rfl⟩
  · exact ⟨_, 0, by rw [fetchInstr_two two], by rw [show n = 2 from two]; rfl, by
      rw [fetchInstr_two two, add_one_add_one, show n = 2 from two]; rfl⟩
  · exact ⟨_, _, by rw [fetchInstr_three three], by rw [add_one_add_one], by
      rw [fetchInstr_three three, add_one_add_one_add_one, show n = 3 from three]; rfl⟩

theorem fetchInstr_memoryKept (s : State) : MemoryKept s (fetchInstr s).2 := by
  rw [fetchInstr_eq]
  exact byteAt_congr rfl rfl rfl rfl

theorem fetchInstr_restKept (s : State) : RestKept s (fetchInstr s).2 := by
  rw [fetchInstr_eq]
  exact ⟨rfl, rfl, rfl, rfl, rfl, rfl, rfl, rfl, rfl, rfl, rfl, rfl, rfl⟩

/-- Settles O6: the reads are as many as the decoded instruction is long, and a read changes the CPU in nothing. -/
theorem fetchReadsTheInstruction : Obligations.FetchReadsTheInstruction := by
  intro s i t
  obtain ⟨b1, b2, answer, bytes, state⟩ := fetchInstr_reads s
  obtain ⟨wf, length, encoding⟩ := decodeBytes_of_length (op := byteAt s s.cpu.pc) rfl b1 b2
  rw [← answer] at wf length encoding
  rw [← length] at bytes state encoding
  have reads : t = onlyCpu (readsFrom i.length s.cpu.pc s) t.cpu := by rw [show t = _ from state]; rfl
  refine ⟨wf, ?_, encoding.trans bytes, fetchInstr_memoryKept s, fetchInstr_restKept s, reads, fun quiet => ?_⟩
  · rw [show t = _ from state, State.setPc, readsFrom_cpu]
  · rw [readsFrom_quiet _ _ _ quiet] at reads
    exact reads

/-! ## The cycle around the CPU tick (R140, 70_reset_and_hazards.md R452) -/

/-- The end of a frame step in the words of the statements. -/
theorem endFrame_eq_withAudio (t : State) : endFrame t = withAudio t := by
  unfold endFrame withAudio
  by_cases on : t.apu.audioEnabled = true
  · rw [if_pos on, if_pos on]
  · rw [if_neg on, if_neg on]

/-- The end of a step in the words of the statements. -/
theorem closeCycle_eq_afterCycle (t : State) : closeCycle t = afterCycle t := by
  unfold afterCycle
  split
  · next mid => exact countCycle_mid (s := audioUnitTick t) mid
  · next last =>
    exact (countCycle_last (s := audioUnitTick t) (Nat.le_of_not_lt last)).trans (endFrame_eq_withAudio _)

/-- The dots and the counting of the tick stay in the picture unit and the CPU's counters and latches. -/
theorem atTick_idleFrame (s : State) : IdleFrame s (atTick s) :=
  ⟨rfl, rfl, rfl, rfl, rfl, rfl, rfl, rfl, rfl, rfl, rfl, rfl⟩

theorem onlyCpu_idleFrame {s t : State} (h : IdleFrame s t) (c : Cpu) : IdleFrame s (onlyCpu t c) :=
  { h with }

/-- The end of a step stays in the audio unit and the count of the frame step. -/
theorem closeCycle_idleFrame {s t : State} (h : IdleFrame s t) : IdleFrame s (closeCycle t) := by
  rw [closeCycle_eq]
  exact { h with }

theorem idleFrame_memoryKept {s t : State} (h : IdleFrame s t) : MemoryKept s t :=
  byteAt_congr h.ram h.prgRam h.mapper (by rw [h.cfg])

/-- A step that begins with an idle tick owed pays it and does nothing else in its CPU tick. -/
theorem step_idle {s : State} (owed : 0 < s.cpu.wait) :
    step s = .next (closeCycle (onlyCpu (atTick s) { (atTick s).cpu with wait := s.cpu.wait - 1 })) := by
  have busy : (atTick s).cpu.wait ≠ 0 := Nat.ne_of_gt owed
  rcases step_cases s with ⟨-, next⟩ | ⟨free, -⟩ | ⟨free, -⟩ | ⟨free, -⟩
  · exact next
  · exact absurd free busy
  · exact absurd free busy
  · exact absurd free busy

/-- Settles O7: an idle tick counts down the CPU's `wait` between the dots and the end of the cycle, neither of which
leaves its own unit. -/
theorem idleTick : Obligations.IdleTick := by
  refine fun s => ⟨rfl, atTick_idleFrame s, rfl, rfl, fun owed => ⟨_, ?_, rfl, ?_⟩⟩
  · rw [← closeCycle_eq_afterCycle]
    exact step_idle owed
  · rw [← closeCycle_eq_afterCycle]
    have frame c : IdleFrame s (closeCycle (onlyCpu (atTick s) c)) :=
      closeCycle_idleFrame (onlyCpu_idleFrame (atTick_idleFrame s) c)
    exact ⟨frame _, idleFrame_memoryKept (frame _), closeCycle_cpu _, closeCycle_ppu _⟩

/-! ## An instruction from memory (R141) -/

/-- When the bytes at PC that the decoded instruction takes lie in memory, fetching answers it and only moves PC. -/
theorem fetchInstr_of_decode {s : State} {i : Instr} {rest : List Byte}
    (memory : ∀ k, k < i.length → isMemory (s.cpu.pc + BitVec.ofNat 16 k) = true)
    (decoded : decode [byteAt s s.cpu.pc, byteAt s (s.cpu.pc + 1), byteAt s (s.cpu.pc + 2)] = .ok (i, rest)) :
    fetchInstr s = (i, s.setPc (s.cpu.pc + BitVec.ofNat 16 i.length)) := by
  have read0 (h : 0 < i.length) : cpuRead s.cpu.pc s = (_, s) :=
    cpuRead_eq_byteAt (isMemory_quiet (by simpa using memory 0 h)) s
  have read1 (h : 1 < i.length) : cpuRead (s.cpu.pc + 1) s = (_, s) :=
    cpuRead_eq_byteAt (isMemory_quiet (memory 1 h)) s
  have read2 (h : 2 < i.length) : cpuRead (s.cpu.pc + 2) s = (_, s) :=
    cpuRead_eq_byteAt (isMemory_quiet (memory 2 h)) s
  rcases instrLength_bounds (byteAt s s.cpu.pc) with one | two | three
  · rw [decode_one one] at decoded
    obtain ⟨rfl, -⟩ := Prod.mk.inj (Except.ok.inj decoded)
    obtain ⟨-, length, -⟩ := decodeBytes_of_length one 0 0
    rw [fetchInstr_one one, read0 (by omega), length]
    rfl
  · rw [decode_two two] at decoded
    obtain ⟨rfl, -⟩ := Prod.mk.inj (Except.ok.inj decoded)
    obtain ⟨-, length, -⟩ := decodeBytes_of_length two (byteAt s (s.cpu.pc + 1)) 0
    rw [fetchInstr_two two, read0 (by omega), read1 (by omega), length, add_one_add_one]
    rfl
  · rw [decode_three three] at decoded
    obtain ⟨rfl, -⟩ := Prod.mk.inj (Except.ok.inj decoded)
    obtain ⟨-, length, -⟩ := decodeBytes_of_length three (byteAt s (s.cpu.pc + 1)) (byteAt s (s.cpu.pc + 2))
    rw [fetchInstr_three three, add_one_add_one_add_one, add_one_add_one, read0 (by omega), read1 (by omega),
      read2 (by omega), length]
    rfl

/-- A step at a boundary with no interrupt to take runs the fetched instruction. -/
theorem step_boundary {s : State} (free : (atTick s).cpu.wait = 0) (noNmi : (atTick s).cpu.pendNMI = false)
    (noIrq : (atTick s).cpu.pendIRQ = false ∨ (atTick s).cpu.flags.i = true) :
    step s = afterNext closeCycle (exec (fetchInstr (atTick s)).1 (fetchInstr (atTick s)).2) := by
  rcases step_cases s with ⟨busy, -⟩ | ⟨-, nmi, -⟩ | ⟨-, -, irq, enabled, -⟩ | ⟨-, -, -, next⟩
  · exact absurd free (Nat.ne_of_gt busy)
  · exact absurd (noNmi.symm.trans nmi) Bool.false_ne_true
  · rcases noIrq with none | masked
    · exact absurd (none.symm.trans irq) Bool.false_ne_true
    · exact absurd (enabled.symm.trans masked) Bool.false_ne_true
  · exact next

/-- Settles O5: the boundary step runs what is fetched, and that is the instruction decoded from memory. -/
theorem stepRunsDecodedInstruction : Obligations.StepRunsDecodedInstruction := by
  intro s t i rest free noNmi noIrq memory decoded runs
  rw [step_boundary free noNmi noIrq, fetchInstr_of_decode memory decoded, runs, ← closeCycle_eq_afterCycle]
  rfl

/-! ## Effective addresses (R147 to R154) -/

/-- An index added to a 16-bit address wraps modulo 65536 (R151, R152, R154). -/
theorem add_zext16_toNat (a : Word) (b : Byte) : (a + zext16 b).toNat = (a.toNat + b.toNat) % 65536 := by
  rw [BitVec.toNat_add, zext16_toNat]

/-- A page-0 sum wraps modulo 256 (R148, R149). -/
theorem zext16_add_toNat (z b : Byte) : (zext16 (z + b)).toNat = (z.toNat + b.toNat) % 256 := by
  rw [zext16_toNat, BitVec.toNat_add]

/-- A pointer takes both its bytes from page 0 of work RAM, low byte first (R153, R154). -/
theorem zpPointer_toNat (z : Byte) (s : State) : (zpPointer z s).toNat =
    (s.ram.read z.toNat).toNat + 256 * (s.ram.read ((z.toNat + 1) % 256)).toNat := by
  have high : byteAt s (zext16 (z + 1)) = s.ram.read ((z.toNat + 1) % 256) := by
    rw [byteAt_page0, BitVec.toNat_add]; rfl
  rw [← byteAt_page0, ← high]
  exact word_toNat _ _

/-- Settles O18: the sums by the rule of their width, the pointers by their two bytes. -/
theorem effectiveAddresses : Obligations.EffectiveAddresses := by
  refine fun s z a => ⟨zext16_toNat z, zext16_add_toNat z s.cpu.x, zext16_add_toNat z s.cpu.y, rfl,
    add_zext16_toNat a s.cpu.x, add_zext16_toNat a s.cpu.y, ?_, ?_⟩
  · rw [effAddr, zpPointer_toNat, BitVec.toNat_add, Nat.mod_add_mod]
  · rw [effAddr, add_zext16_toNat, zpPointer_toNat]

end Sys2Proof.Machine

/-! # Loads, stores, transfers and the stack (41_cpu_load_store.md) -/

namespace Sys2Proof.Claims

open Sys2Proof.Machine

theorem setZN_eq_flagsZN (r : Byte) (f : Flags) : setZN r f = flagsZN r f := setZN_eq r f

/-! ## The rows of instructions that read an operand (40_cpu_step_addressing.md R157, R158) -/

/-- The page-cross test of every mode in numbers: the modes without one stay in the page of their base address. -/
theorem crosses_toNat (m : Addr) (s : State) :
    (crosses m s).toNat = if (baseAddr m s).toNat / 256 = (effAddr m s).toNat / 256 then 0 else 1 := by
  have page0 (z : Byte) : (zext16 z).toNat / 256 = 0 := by rw [zext16_toNat]; exact Nat.div_eq_of_lt z.isLt
  cases m with
  | abx | aby | izy => exact pageCross_eq _ _
  | zp | abs | izx => exact (if_pos rfl).symm
  | zpx | zpy => exact (if_pos ((page0 _).trans (page0 _).symm)).symm

/-- The sources whose instructions are marked `+p` in 30_encoding.md R127. -/
def mayCross : Source → Bool
  | .mem (.abx _) | .mem (.aby _) | .mem (.izy _) => true
  | _ => false

theorem pagePenalty_of_not_mayCross {src : Source} (h : mayCross src = false) (s : State) : pagePenalty src s = 0 := by
  cases src with
  | imm => rfl
  | mem m => cases m with
    | abx | aby | izy => cases h
    | zp | zpx | zpy | abs | izx => rfl

/-- The row's instruction encodes as the row says and does what `run` makes of the row's source and base cycles; the
row is marked `+p` where its source may leave the page. -/
structure ReadRow.Runs (r : ReadRow) (mn : Mnemonic) (run : Source → Nat → State → State) : Prop where
  encoded : r.encoded mn
  runs : ∀ s, exec r.instr s = .next (run r.src r.cycles s)
  marked : r.plusP = mayCross r.src

theorem ReadRow.operand_value (r : ReadRow) (s : State) : (operand r.src s).1 = r.value s := by
  unfold ReadRow.value
  cases r.src <;> rfl

theorem ReadRow.operand_after (r : ReadRow) (s : State) : (operand r.src s).2 = r.after s := by
  unfold ReadRow.after
  cases r.src <;> rfl

theorem ReadRow.after_frame (r : ReadRow) (s : State) : ReadFrame (r.addr s) s (r.after s) := by
  unfold ReadRow.addr ReadRow.after
  cases r.src with
  | imm => exact readFrame_refl none s
  | mem m => exact cpuRead_frame (effAddr m s) s

section
variable {r : ReadRow} {mn : Mnemonic} {run : Source → Nat → State → State} (row : r.Runs mn run)
include row

/-- The cycles of a row are its base and the penalty the machine takes. -/
theorem ReadRow.Runs.ticks_eq (s : State) : r.ticks s = r.cycles + pagePenalty r.src s := by
  unfold ReadRow.ticks
  cases marked : r.plusP with
  | false => rw [pagePenalty_of_not_mayCross (row.marked.symm.trans marked)]; rfl
  | true =>
    cases r.src with
    | imm => rfl
    | mem m => rw [pagePenalty, crosses_toNat]

/-- A row whose operand `m` makes the CPU record `put m` has the frame of its one read. -/
theorem ReadRow.Runs.effect {s : State} (put : Byte → Cpu)
    (h : run r.src r.cycles s =
      onlyCpu (operand r.src s).2 (ended (r.cycles + pagePenalty r.src s) (put (operand r.src s).1))) :
    r.encoded mn ∧ ∃ t, exec r.instr s = .next t ∧ t.cpu = ended (r.ticks s) (put (r.value s)) ∧
      ReadFrame (r.addr s) s t ∧ t = onlyCpu (r.after s) t.cpu := by
  rw [r.operand_value, r.operand_after, ← row.ticks_eq] at h
  exact ⟨row.encoded, _, (row.runs s).trans (congrArg _ h), rfl, (r.after_frame s).withCpu _, rfl⟩

end

/-! ## Loads (R170 to R172) -/

theorem ldaRows_run {b z : Byte} {a : Word} {r : ReadRow} (mem : r ∈ ldaRows b z a) :
    r.Runs .LDA (load State.setA) := by
  simp only [ldaRows, List.mem_cons, List.not_mem_nil, or_false] at mem
  rcases mem with rfl | rfl | rfl | rfl | rfl | rfl | rfl | rfl <;> exact ⟨⟨rfl, rfl⟩, fun _ => rfl, rfl⟩

theorem ldxRows_run {b z : Byte} {a : Word} {r : ReadRow} (mem : r ∈ ldxRows b z a) :
    r.Runs .LDX (load State.setX) := by
  simp only [ldxRows, List.mem_cons, List.not_mem_nil, or_false] at mem
  rcases mem with rfl | rfl | rfl | rfl | rfl <;> exact ⟨⟨rfl, rfl⟩, fun _ => rfl, rfl⟩

theorem ldyRows_run {b z : Byte} {a : Word} {r : ReadRow} (mem : r ∈ ldyRows b z a) :
    r.Runs .LDY (load State.setY) := by
  simp only [ldyRows, List.mem_cons, List.not_mem_nil, or_false] at mem
  rcases mem with rfl | rfl | rfl | rfl | rfl <;> exact ⟨⟨rfl, rfl⟩, fun _ => rfl, rfl⟩

/-- Settles O19: every row is one load of A from its source. -/
theorem loadAccumulator : Obligations.LoadAccumulator := fun _ _ _ _ mem s =>
  (ldaRows_run mem).effect (fun m => { s.cpu with a := m, flags := flagsZN m s.cpu.flags })
    (by rw [load_setA_eq, setZN_eq_flagsZN]; rfl)

/-- Settles O20: every row is one load of X, or of Y, from its source. -/
theorem loadIndexRegisters : Obligations.LoadIndexRegisters := fun _ _ _ s =>
  ⟨fun _ mem => (ldxRows_run mem).effect (fun m => { s.cpu with x := m, flags := flagsZN m s.cpu.flags })
      (by rw [load_setX_eq, setZN_eq_flagsZN]; rfl),
    fun _ mem => (ldyRows_run mem).effect (fun m => { s.cpu with y := m, flags := flagsZN m s.cpu.flags })
      (by rw [load_setY_eq, setZN_eq_flagsZN]; rfl)⟩

/-! ## Stores (R173 to R175) -/

/-- The row's instruction encodes as the row says and does what `run` makes of the row's mode and cycles. -/
structure MemRow.Runs (r : MemRow) (mn : Mnemonic) (run : Addr → Nat → State → State) : Prop where
  encoded : r.encoded mn
  runs : ∀ s, exec r.instr s = .next (run r.mode r.cycles s)

/-- The store of a register. -/
def storeReg (reg : Cpu → Byte) (m : Addr) (n : Nat) (s : State) : State := store (reg s.cpu) m n s

theorem staRows_run {z : Byte} {a : Word} {r : MemRow} (mem : r ∈ staRows z a) : r.Runs .STA (storeReg Cpu.a) := by
  simp only [staRows, List.mem_cons, List.not_mem_nil, or_false] at mem
  rcases mem with rfl | rfl | rfl | rfl | rfl | rfl | rfl <;> exact ⟨⟨rfl, rfl⟩, fun _ => rfl⟩

theorem stxRows_run {z : Byte} {a : Word} {r : MemRow} (mem : r ∈ stxRows z a) : r.Runs .STX (storeReg Cpu.x) := by
  simp only [stxRows, List.mem_cons, List.not_mem_nil, or_false] at mem
  rcases mem with rfl | rfl | rfl <;> exact ⟨⟨rfl, rfl⟩, fun _ => rfl⟩

theorem styRows_run {z : Byte} {a : Word} {r : MemRow} (mem : r ∈ styRows z a) : r.Runs .STY (storeReg Cpu.y) := by
  simp only [styRows, List.mem_cons, List.not_mem_nil, or_false] at mem
  rcases mem with rfl | rfl | rfl <;> exact ⟨⟨rfl, rfl⟩, fun _ => rfl⟩

/-- A store is one write of the register at the effective address, after which only the stall it asks for is owed. -/
theorem MemRow.Runs.store_effect {r : MemRow} {mn : Mnemonic} {reg : Cpu → Byte} (row : r.Runs mn (storeReg reg))
    {s : State} (ram : s.ram.wf = true) (prgRam : s.prgRam.wf = true) :
    r.encoded mn ∧ ∃ t, exec r.instr s = .next t ∧
      t.cpu = ended r.cycles { s.cpu with dmaStall := s.cpu.dmaStall + dmaTicks (effAddr r.mode s) s } ∧
      WriteFrame (effAddr r.mode s) (reg s.cpu) s t ∧ t = onlyCpu (cpuWrite (effAddr r.mode s) (reg s.cpu) s) t.cpu :=
  ⟨row.encoded, _, (row.runs s).trans (congrArg _ (store_eq (reg s.cpu) r.mode r.cycles s)), rfl,
    (cpuWrite_frame (effAddr r.mode s) (reg s.cpu) s ram prgRam).withCpu _, rfl⟩

/-- Settles O21: every row is one store of its register. -/
theorem storeRegisters : Obligations.StoreRegisters := fun _ _ _ ram prgRam =>
  ⟨fun _ mem => (staRows_run mem).store_effect ram prgRam, fun _ mem => (stxRows_run mem).store_effect ram prgRam,
    fun _ mem => (styRows_run mem).store_effect ram prgRam⟩

/-! ## Transfers (R176 to R181) -/

/-- Settles O22, by the six rows, each of which changes the CPU record alone. -/
theorem registerTransfers : Obligations.RegisterTransfers := by
  intro r mem s
  rw [← setZN_eq_flagsZN]
  simp only [transferRows, List.mem_cons, List.not_mem_nil, or_false] at mem
  rcases mem with rfl | rfl | rfl | rfl | rfl | rfl <;> exact ⟨rfl, rfl, _, rfl, rfl, memoryKept_withCpu s _⟩

/-! ## The stack (R182 to R185) -/

/-- An instruction of `n` cycles that pushes a byte stores it in the slot SP names and moves SP down; no other byte of
memory and no other unit changes. -/
theorem push_finish_effect (v : Byte) (n : Nat) {s : State} (wf : s.ram.wf = true) :
    ((push v s).finish n).cpu = ended n { s.cpu with sp := s.cpu.sp - 1 } ∧
      byteAt ((push v s).finish n) (stackAddr s.cpu.sp) = v ∧ MemoryKeptOffStack 1 s ((push v s).finish n) ∧
      UnitsKept s ((push v s).finish n) := by
  have pushed (a : Word) (mem : isMemory a = true) :
      byteAt ((push v s).finish n) a = if sameCell (stackAddr s.cpu.sp) a then v else byteAt s a :=
    (memoryKept_withCpu _ _ a mem).trans (byteAt_push v s wf mem)
  refine ⟨?_, ?_, fun a mem off => ?_, ?_⟩
  · rw [push_eq]; rfl
  · rw [pushed _ (isMemory_ram (stackAddr_ram s.cpu.sp)), if_pos (sameCell_self _)]
  · have other : sameCell (stackAddr s.cpu.sp) a = false := by simpa using off 0 Nat.zero_lt_one
    rw [pushed a mem, other]
    rfl
  · rw [push_eq]
    exact ⟨⟨rfl, rfl, rfl, rfl, rfl, rfl, rfl, rfl, rfl, rfl, rfl, rfl, rfl⟩, rfl, rfl⟩

/-- Settles O23: both are a push, of A and of the status byte. -/
theorem stackPushes : Obligations.StackPushes := by
  intro s wf
  obtain ⟨cpu, slot, kept, units⟩ := push_finish_effect (s.cpu.flags.toByte true) 3 wf
  exact ⟨⟨rfl, _, rfl, push_finish_effect s.cpu.a 3 wf⟩,
    rfl, _, rfl, cpu, (congrArg BitVec.toNat slot).trans (toByte_toNat true s.cpu.flags), kept, units⟩

theorem pullA_eq (s : State) : pullA s = onlyCpu s { s.cpu with
    a := byteAt s (stackAddr (s.cpu.sp + 1)), sp := s.cpu.sp + 1,
    flags := flagsZN (byteAt s (stackAddr (s.cpu.sp + 1))) s.cpu.flags } := by
  rw [pullA, pull_eq, ← setZN_eq_flagsZN]
  rfl

theorem ofByte_eq_flagsOf (p : Byte) : Flags.ofByte p = flagsOf p := ofByte_eq p

theorem pullFlags_eq (s : State) : pullFlags s = onlyCpu s { s.cpu with
    sp := s.cpu.sp + 1, flags := flagsOf (byteAt s (stackAddr (s.cpu.sp + 1))) } := by
  rw [pullFlags, pull_eq, ← ofByte_eq_flagsOf]
  rfl

/-- Settles O24: a pull changes the CPU record alone. -/
theorem stackPulls : Obligations.StackPulls := fun s =>
  ⟨⟨rfl, _, congrArg (fun t => Host.Outcome.next (State.finish 4 t)) (pullA_eq s), rfl, memoryKept_withCpu s _⟩,
    rfl, _, congrArg (fun t => Host.Outcome.next (State.finish 4 t)) (pullFlags_eq s), rfl, memoryKept_withCpu s _⟩

end Sys2Proof.Claims

/-! # Arithmetic, logic, shifts and rotates (42_cpu_arith_logic.md) -/

namespace Sys2Proof.Claims

open Sys2Proof.Machine

/-! ## What the three shapes of instruction do -/

section
variable {r : ReadRow} {mn : Mnemonic}

/-- A row that is one operation on A and the operand puts the operation's result in A and its flags in P. -/
theorem ReadRow.Runs.accOp_effect {op : Byte → Byte → Flags → Byte × Flags} (row : r.Runs mn (accOp op)) {s : State}
    {res : Byte} {fl : Flags} (computes : op s.cpu.a (r.value s) s.cpu.flags = (res, fl)) :
    r.encoded mn ∧ ∃ t, exec r.instr s = .next t ∧ t.cpu = ended (r.ticks s) { s.cpu with a := res, flags := fl } ∧
      ReadFrame (r.addr s) s t ∧ t = onlyCpu (r.after s) t.cpu := by
  have effect := row.effect
    (fun m => { s.cpu with a := (op s.cpu.a m s.cpu.flags).1, flags := (op s.cpu.a m s.cpu.flags).2 })
    (accOp_eq op r.src r.cycles s)
  rwa [computes] at effect

/-- The operation on a register and the operand that writes flags only. -/
def flagRegOp (op : Byte → Byte → Flags → Flags) (reg : Cpu → Byte) (src : Source) (n : Nat) (s : State) : State :=
  flagOp (op (reg s.cpu)) src n s

/-- A row that is one such operation changes the flags alone. -/
theorem ReadRow.Runs.flagOp_effect {op : Byte → Byte → Flags → Flags} {reg : Cpu → Byte}
    (row : r.Runs mn (flagRegOp op reg)) {s : State} {fl : Flags}
    (computes : op (reg s.cpu) (r.value s) s.cpu.flags = fl) :
    r.encoded mn ∧ ∃ t, exec r.instr s = .next t ∧ t.cpu = ended (r.ticks s) { s.cpu with flags := fl } ∧
      ReadFrame (r.addr s) s t ∧ t = onlyCpu (r.after s) t.cpu := by
  have effect := row.effect (fun m => { s.cpu with flags := op (reg s.cpu) m s.cpu.flags })
    (flagOp_eq (op (reg s.cpu)) r.src r.cycles s)
  rwa [computes] at effect

end

/-- A read-modify-write has the frame of its one write, from the state that its one read leaves. -/
theorem rmwMem_effect (op : Byte → Flags → Byte × Flags) (m : Addr) (n : Nat) {s : State} (ram : s.ram.wf = true)
    (prgRam : s.prgRam.wf = true) :
    RmwEffect (effAddr m s) (op (byteAt s (effAddr m s)) s.cpu.flags).1 (op (byteAt s (effAddr m s)) s.cpu.flags).2 n
      s (rmwMem op m n s) := by
  rw [rmwMem_eq]
  have frame := (cpuWrite_frame (effAddr m s) (op (byteAt s (effAddr m s)) s.cpu.flags).1 (cpuRead (effAddr m s) s).2
    (by rwa [cpuRead_ram]) (by rwa [cpuRead_prgRam])).withCpu
  exact {
    cpu := rfl
    frame := frame _
    memory := fun a mem other window =>
      ((frame _).memory a mem other window).trans (cpuRead_memoryKept (effAddr m s) s a mem)
    bus := rfl }

/-- A row that is one read-modify-write stores the operation's result and puts its flags in P. -/
theorem MemRow.Runs.rmw_effect {r : MemRow} {mn : Mnemonic} {op : Byte → Flags → Byte × Flags}
    (row : r.Runs mn (rmwMem op)) {s : State} (ram : s.ram.wf = true) (prgRam : s.prgRam.wf = true) {res : Byte}
    {fl : Flags} (computes : op (byteAt s (effAddr r.mode s)) s.cpu.flags = (res, fl)) :
    r.encoded mn ∧ ∃ t, exec r.instr s = .next t ∧ RmwEffect (effAddr r.mode s) res fl r.cycles s t := by
  have effect := rmwMem_effect op r.mode r.cycles ram prgRam
  rw [computes] at effect
  exact ⟨row.encoded, _, row.runs s, effect⟩

/-- An instruction that is one operation on a register changes that register and the flags alone. -/
theorem stepReg_effect {i : Instr} {op : Byte → Flags → Byte × Flags} {set : Byte → State → State}
    {put : Byte → Cpu → Cpu} {v res : Byte} {fl : Flags} {n : Nat} {s : State}
    (runs : exec i s = .next (stepReg op set v n s)) (sets : set res s = onlyCpu s (put res s.cpu))
    (computes : op v s.cpu.flags = (res, fl)) :
    ∃ t, exec i s = .next t ∧ t = onlyCpu s (ended n { put res s.cpu with flags := fl }) ∧ MemoryKept s t := by
  rw [stepReg, computes] at runs
  dsimp only at runs
  rw [sets] at runs
  exact ⟨_, runs, rfl, memoryKept_withCpu s _⟩

/-! ## ADC and SBC (R190, R191) -/

theorem s8_eq_toInt (b : Byte) : s8 b = b.toInt := by
  unfold s8
  rw [BitVec.toInt_eq_toNat_cond]
  split <;> split <;> omega

/-- Equality as a Boolean is the decision of equality (Mathlib's `beq_eq_decide`, which the package does not import). -/
theorem beq_eq_decide_eq {α : Type} [DecidableEq α] (x y : α) : (x == y) = decide (x = y) := rfl

theorem bne_eq_decide_ne (x y : Byte) : (x != y) = decide (x ≠ y) := by rw [bne, beq_eq_decide_eq, decide_not]

/-- R190's overflow formula holds exactly when the signed sum leaves -128 to 127. -/
theorem signedSum_overflow (a m : Byte) (c : Bool) :
    let res : Byte := BitVec.ofNat 8 (a.toNat + m.toNat + c.toNat)
    (((a ^^^ res) &&& (m ^^^ res) &&& 0x80) != 0) =
      decide (s8 a + s8 m + c.toNat < -128 ∨ 127 < s8 a + s8 m + c.toNat) := by
  rw [s8_eq_toInt, s8_eq_toInt]
  exact adc_overflow a m c

/-- The signed value of the ones' complement turns SBC's addition into the signed difference with borrow. -/
theorem s8_complement_sum (a m : Byte) (c : Bool) :
    s8 a + s8 (m ^^^ 0xFF) + c.toNat = s8 a - s8 m - (1 - c.toNat) := by
  rw [s8_eq_toInt (m ^^^ 0xFF), complement_toInt, s8_eq_toInt m]
  omega

/-- R191's overflow formula holds exactly when the signed difference leaves -128 to 127. -/
theorem signedDifference_overflow (a m : Byte) (c : Bool) :
    let res : Byte := BitVec.ofInt 8 ((a.toNat : Int) - m.toNat - (1 - c.toNat))
    (((a ^^^ res) &&& ((m ^^^ 0xFF) ^^^ res) &&& 0x80) != 0) =
      decide (s8 a - s8 m - (1 - c.toNat) < -128 ∨ 127 < s8 a - s8 m - (1 - c.toNat)) := by
  rw [← sbc_result, ← s8_complement_sum]
  exact signedSum_overflow a (m ^^^ 0xFF) c

theorem adc_eq (a m : Byte) (f : Flags) :
    let sum := a.toNat + m.toNat + f.c.toNat
    let signed : Int := s8 a + s8 m + f.c.toNat
    adc a m f = (BitVec.ofNat 8 sum, flagsZN (BitVec.ofNat 8 sum)
      { f with c := decide (255 < sum), v := decide (signed < -128 ∨ 127 < signed) }) := by
  intro sum signed
  rw [← setZN_eq_flagsZN, ← signedSum_overflow]
  rfl

theorem sbc_eq (a m : Byte) (f : Flags) :
    let diff : Int := a.toNat - m.toNat - (1 - f.c.toNat)
    let signed : Int := s8 a - s8 m - (1 - f.c.toNat)
    sbc a m f = (BitVec.ofInt 8 diff, flagsZN (BitVec.ofInt 8 diff)
      { f with c := decide (0 ≤ diff), v := decide (signed < -128 ∨ 127 < signed) }) := by
  intro diff signed
  rw [← setZN_eq_flagsZN, ← signedDifference_overflow, ← sbc_result, ← sbc_carry]
  rfl

theorem adcRows_run {b z : Byte} {a : Word} {r : ReadRow} (mem : r ∈ adcRows b z a) : r.Runs .ADC (accOp adc) := by
  simp only [adcRows, List.mem_cons, List.not_mem_nil, or_false] at mem
  rcases mem with rfl | rfl | rfl | rfl | rfl | rfl | rfl | rfl <;> exact ⟨⟨rfl, rfl⟩, fun _ => rfl, rfl⟩

theorem sbcRows_run {b z : Byte} {a : Word} {r : ReadRow} (mem : r ∈ sbcRows b z a) : r.Runs .SBC (accOp sbc) := by
  simp only [sbcRows, List.mem_cons, List.not_mem_nil, or_false] at mem
  rcases mem with rfl | rfl | rfl | rfl | rfl | rfl | rfl | rfl <;> exact ⟨⟨rfl, rfl⟩, fun _ => rfl, rfl⟩

/-- Settles O25: every row is one addition to A, and the overflow formula is the range test on the signed sum. -/
theorem addWithCarry : Obligations.AddWithCarry := by
  intro b z a r mem s
  obtain ⟨encoded, effect⟩ := (adcRows_run mem).accOp_effect (adc_eq s.cpu.a (r.value s) s.cpu.flags)
  have overflow := signedSum_overflow s.cpu.a (r.value s) s.cpu.flags.c
  exact ⟨encoded, overflow.symm.trans (bne_eq_decide_ne _ _), effect⟩

/-- Settles O26: every row is one subtraction from A, which the model does as an addition of the complement. -/
theorem subtractWithBorrow : Obligations.SubtractWithBorrow := by
  intro b z a r mem s
  obtain ⟨encoded, effect⟩ := (sbcRows_run mem).accOp_effect (sbc_eq s.cpu.a (r.value s) s.cpu.flags)
  have overflow := signedDifference_overflow s.cpu.a (r.value s) s.cpu.flags.c
  exact ⟨encoded, overflow.symm.trans (bne_eq_decide_ne _ _), effect⟩

/-! ## AND, ORA and EOR (R192 to R194) -/

theorem andRows_run {b z : Byte} {a : Word} {r : ReadRow} (mem : r ∈ andRows b z a) : r.Runs .AND (accOp andOp) := by
  simp only [andRows, List.mem_cons, List.not_mem_nil, or_false] at mem
  rcases mem with rfl | rfl | rfl | rfl | rfl | rfl | rfl | rfl <;> exact ⟨⟨rfl, rfl⟩, fun _ => rfl, rfl⟩

theorem oraRows_run {b z : Byte} {a : Word} {r : ReadRow} (mem : r ∈ oraRows b z a) : r.Runs .ORA (accOp oraOp) := by
  simp only [oraRows, List.mem_cons, List.not_mem_nil, or_false] at mem
  rcases mem with rfl | rfl | rfl | rfl | rfl | rfl | rfl | rfl <;> exact ⟨⟨rfl, rfl⟩, fun _ => rfl, rfl⟩

theorem eorRows_run {b z : Byte} {a : Word} {r : ReadRow} (mem : r ∈ eorRows b z a) : r.Runs .EOR (accOp eorOp) := by
  simp only [eorRows, List.mem_cons, List.not_mem_nil, or_false] at mem
  rcases mem with rfl | rfl | rfl | rfl | rfl | rfl | rfl | rfl <;> exact ⟨⟨rfl, rfl⟩, fun _ => rfl, rfl⟩

/-- Settles O27: every row is one bitwise operation on A, whose result Z and N follow. -/
theorem logicOperations : Obligations.LogicOperations := fun _ _ _ s =>
  have follow (res : Byte) : (res, setZN res s.cpu.flags) = (res, flagsZN res s.cpu.flags) :=
    congrArg (Prod.mk res) (setZN_eq_flagsZN res s.cpu.flags)
  ⟨fun _ mem => (andRows_run mem).accOp_effect (follow _), fun _ mem => (oraRows_run mem).accOp_effect (follow _),
    fun _ mem => (eorRows_run mem).accOp_effect (follow _)⟩

/-! ## BIT (R198) -/

theorem bitFlags_eq (a m : Byte) (f : Flags) : bitFlags a m f = { f with
    z := decide (a &&& m = 0), n := decide (128 ≤ m.toNat), v := decide (64 ≤ m.toNat % 128) } := by
  rw [bitFlags, bit7_eq, bit6_eq, beq_eq_decide_eq]

theorem bitRows_run {z : Byte} {a : Word} {r : ReadRow} (mem : r ∈ bitRows z a) :
    r.Runs .BIT (flagRegOp bitFlags Cpu.a) := by
  simp only [bitRows, List.mem_cons, List.not_mem_nil, or_false] at mem
  rcases mem with rfl | rfl <;> exact ⟨⟨rfl, rfl⟩, fun _ => rfl, rfl⟩

/-- Settles O28: both rows are one test of A, which writes flags only. -/
theorem bitTest : Obligations.BitTest := fun _ _ _ mem _ => (bitRows_run mem).flagOp_effect (bitFlags_eq _ _ _)

/-! ## Compares (R195 to R197) -/

theorem compareFlags_eq (reg m : Byte) (f : Flags) : compareFlags reg m f = { f with
    c := decide (m.toNat ≤ reg.toNat), z := decide (reg = m),
    n := decide (128 ≤ (256 + reg.toNat - m.toNat) % 256) } := by
  have diff : (reg - m).toNat = (256 + reg.toNat - m.toNat) % 256 := by bv_omega
  have zero : (reg - m).toNat = 0 ↔ reg = m := by bv_omega
  rw [compareFlags, setZN_eq, decide_eq_decide.2 zero, diff]

theorem cmpRows_run {b z : Byte} {a : Word} {r : ReadRow} (mem : r ∈ cmpRows b z a) :
    r.Runs .CMP (flagRegOp compareFlags Cpu.a) := by
  simp only [cmpRows, List.mem_cons, List.not_mem_nil, or_false] at mem
  rcases mem with rfl | rfl | rfl | rfl | rfl | rfl | rfl | rfl <;> exact ⟨⟨rfl, rfl⟩, fun _ => rfl, rfl⟩

theorem cpxRows_run {b z : Byte} {a : Word} {r : ReadRow} (mem : r ∈ cpxRows b z a) :
    r.Runs .CPX (flagRegOp compareFlags Cpu.x) := by
  simp only [cpxRows, List.mem_cons, List.not_mem_nil, or_false] at mem
  rcases mem with rfl | rfl | rfl <;> exact ⟨⟨rfl, rfl⟩, fun _ => rfl, rfl⟩

theorem cpyRows_run {b z : Byte} {a : Word} {r : ReadRow} (mem : r ∈ cpyRows b z a) :
    r.Runs .CPY (flagRegOp compareFlags Cpu.y) := by
  simp only [cpyRows, List.mem_cons, List.not_mem_nil, or_false] at mem
  rcases mem with rfl | rfl | rfl <;> exact ⟨⟨rfl, rfl⟩, fun _ => rfl, rfl⟩

/-- Settles O29: every row is one comparison of its register, which writes flags only. -/
theorem compares : Obligations.Compares := fun _ _ _ _ =>
  ⟨fun _ mem => (cmpRows_run mem).flagOp_effect (compareFlags_eq _ _ _),
    fun _ mem => (cpxRows_run mem).flagOp_effect (compareFlags_eq _ _ _),
    fun _ mem => (cpyRows_run mem).flagOp_effect (compareFlags_eq _ _ _)⟩

/-! ## Increments and decrements (R199 to R204) -/

theorem incOp_eq (m : Byte) (f : Flags) :
    incOp m f = (BitVec.ofNat 8 (m.toNat + 1), flagsZN (BitVec.ofNat 8 (m.toNat + 1)) f) := by
  have up : m + 1 = BitVec.ofNat 8 (m.toNat + 1) := by bv_omega
  rw [incOp, setZN_eq_flagsZN, up]

theorem decOp_eq (m : Byte) (f : Flags) :
    decOp m f = (BitVec.ofNat 8 (m.toNat + 255), flagsZN (BitVec.ofNat 8 (m.toNat + 255)) f) := by
  have down : m - 1 = BitVec.ofNat 8 (m.toNat + 255) := by bv_omega
  rw [decOp, setZN_eq_flagsZN, down]

theorem incRows_run {z : Byte} {a : Word} {r : MemRow} (mem : r ∈ incRows z a) : r.Runs .INC (rmwMem incOp) := by
  simp only [incRows, List.mem_cons, List.not_mem_nil, or_false] at mem
  rcases mem with rfl | rfl | rfl | rfl <;> exact ⟨⟨rfl, rfl⟩, fun _ => rfl⟩

theorem decRows_run {z : Byte} {a : Word} {r : MemRow} (mem : r ∈ decRows z a) : r.Runs .DEC (rmwMem decOp) := by
  simp only [decRows, List.mem_cons, List.not_mem_nil, or_false] at mem
  rcases mem with rfl | rfl | rfl | rfl <;> exact ⟨⟨rfl, rfl⟩, fun _ => rfl⟩

/-- Settles O30: every row is one read-modify-write of its cell. -/
theorem incrementDecrementMemory : Obligations.IncrementDecrementMemory := fun _ _ _ ram prgRam =>
  ⟨fun _ mem => (incRows_run mem).rmw_effect ram prgRam (incOp_eq _ _),
    fun _ mem => (decRows_run mem).rmw_effect ram prgRam (decOp_eq _ _)⟩

/-- Settles O31, by the four rows, each of which is one step of X or of Y. -/
theorem incrementDecrementRegisters : Obligations.IncrementDecrementRegisters := by
  intro r mem s
  simp only [stepRows, List.mem_cons, List.not_mem_nil, or_false] at mem
  rcases mem with rfl | rfl | rfl | rfl
  · exact ⟨rfl, rfl, stepReg_effect rfl rfl (incOp_eq s.cpu.x s.cpu.flags)⟩
  · exact ⟨rfl, rfl, stepReg_effect rfl rfl (incOp_eq s.cpu.y s.cpu.flags)⟩
  · exact ⟨rfl, rfl, stepReg_effect rfl rfl (decOp_eq s.cpu.x s.cpu.flags)⟩
  · exact ⟨rfl, rfl, stepReg_effect rfl rfl (decOp_eq s.cpu.y s.cpu.flags)⟩

/-! ## Shifts and rotates (R205 to R208) -/

/-- A shift in numbers as an operation of the model. -/
def Shift.op (h : Shift) (m : Byte) (f : Flags) : Byte × Flags := (h.byte m f, h.flags m f)

theorem bit0_eq (m : Byte) : m.getLsbD 0 = (m.toNat % 2 == 1) := by
  rw [BitVec.getLsbD, Nat.testBit_zero, beq_eq_decide_eq]

/-- A model operation that gives a shift's byte, carries out its bit and then sets Z and N is that shift. -/
theorem Shift.op_eq (h : Shift) {m r : Byte} {f : Flags} {c : Bool} (byte : r = h.byte m f)
    (carry : c = h.carry m.toNat) :
    (r, setZN r { f with c := c }) = h.op m f := by
  rw [setZN_eq_flagsZN, byte, carry]
  rfl

theorem shiftLeft_one_toNat (m : Byte) : (m <<< 1).toNat = 2 * (m.toNat % 128) := by
  rw [BitVec.toNat_shiftLeft, Nat.shiftLeft_eq]
  omega

theorem shiftRight_one_toNat (m : Byte) : (m >>> 1).toNat = m.toNat / 2 := by
  rw [BitVec.toNat_ushiftRight, Nat.shiftRight_eq_div_pow, Nat.pow_one]

theorem carryByte_toNat (c : Bool) : ((BitVec.ofBool c).setWidth 8).toNat = c.toNat := by cases c <;> rfl

/-- The old carry enters bit 0, which a shift to the left leaves free. -/
theorem rotateLeft_toNat (m : Byte) (c : Bool) :
    (m <<< 1 ||| (BitVec.ofBool c).setWidth 8).toNat = 2 * (m.toNat % 128) + c.toNat := by
  rw [BitVec.toNat_or, shiftLeft_one_toNat, carryByte_toNat]
  exact (Nat.two_pow_add_eq_or_of_lt (i := 1) (Bool.toNat_lt c) _).symm

/-- The old carry enters bit 7, which a shift to the right leaves free. -/
theorem rotateRight_toNat (m : Byte) (c : Bool) :
    (m >>> 1 ||| (BitVec.ofBool c).setWidth 8 <<< 7).toNat = m.toNat / 2 + 128 * c.toNat := by
  have bit7 : ((BitVec.ofBool c).setWidth 8 <<< 7).toNat = 2 ^ 7 * c.toNat := by cases c <;> rfl
  have low : m.toNat / 2 < 2 ^ 7 := by have := m.isLt; omega
  rw [BitVec.toNat_or, shiftRight_one_toNat, bit7, Nat.or_comm, ← Nat.two_pow_add_eq_or_of_lt low, Nat.add_comm]

theorem aslOp_eq (m : Byte) (f : Flags) : aslOp m f = aslShift.op m f :=
  have byte : m <<< 1 = BitVec.ofNat 8 (2 * m.toNat) := BitVec.eq_of_toNat_eq (by
    rw [shiftLeft_one_toNat, BitVec.toNat_ofNat]
    omega)
  aslShift.op_eq byte (bit7_eq m)

theorem lsrOp_eq (m : Byte) (f : Flags) : lsrOp m f = lsrShift.op m f :=
  have byte : m >>> 1 = BitVec.ofNat 8 (m.toNat / 2) := BitVec.eq_of_toNat_eq (by
    rw [shiftRight_one_toNat, BitVec.toNat_ofNat]
    omega)
  lsrShift.op_eq byte (bit0_eq m)

theorem rolOp_eq (m : Byte) (f : Flags) : rolOp m f = rolShift.op m f :=
  have byte : m <<< 1 ||| (BitVec.ofBool f.c).setWidth 8 = BitVec.ofNat 8 (2 * m.toNat + f.c.toNat) :=
    BitVec.eq_of_toNat_eq (by
      have := Bool.toNat_lt f.c
      rw [rotateLeft_toNat, BitVec.toNat_ofNat]
      omega)
  rolShift.op_eq byte (bit7_eq m)

theorem rorOp_eq (m : Byte) (f : Flags) : rorOp m f = rorShift.op m f :=
  have byte : m >>> 1 ||| (BitVec.ofBool f.c).setWidth 8 <<< 7 = BitVec.ofNat 8 (m.toNat / 2 + 128 * f.c.toNat) :=
    BitVec.eq_of_toNat_eq (by
      have := Bool.toNat_lt f.c
      rw [rotateRight_toNat, BitVec.toNat_ofNat]
      omega)
  rorShift.op_eq byte (bit0_eq m)

theorem aslRows_run {z : Byte} {a : Word} {r : MemRow} (mem : r ∈ aslRows z a) : r.Runs .ASL (rmwMem aslOp) := by
  simp only [aslRows, List.mem_cons, List.not_mem_nil, or_false] at mem
  rcases mem with rfl | rfl | rfl | rfl <;> exact ⟨⟨rfl, rfl⟩, fun _ => rfl⟩

theorem lsrRows_run {z : Byte} {a : Word} {r : MemRow} (mem : r ∈ lsrRows z a) : r.Runs .LSR (rmwMem lsrOp) := by
  simp only [lsrRows, List.mem_cons, List.not_mem_nil, or_false] at mem
  rcases mem with rfl | rfl | rfl | rfl <;> exact ⟨⟨rfl, rfl⟩, fun _ => rfl⟩

theorem rolRows_run {z : Byte} {a : Word} {r : MemRow} (mem : r ∈ rolRows z a) : r.Runs .ROL (rmwMem rolOp) := by
  simp only [rolRows, List.mem_cons, List.not_mem_nil, or_false] at mem
  rcases mem with rfl | rfl | rfl | rfl <;> exact ⟨⟨rfl, rfl⟩, fun _ => rfl⟩

theorem rorRows_run {z : Byte} {a : Word} {r : MemRow} (mem : r ∈ rorRows z a) : r.Runs .ROR (rmwMem rorOp) := by
  simp only [rorRows, List.mem_cons, List.not_mem_nil, or_false] at mem
  rcases mem with rfl | rfl | rfl | rfl <;> exact ⟨⟨rfl, rfl⟩, fun _ => rfl⟩

/-- An instruction that is one shift of A changes A and the flags alone. -/
theorem shiftAcc_effect {i : Instr} {op : Byte → Flags → Byte × Flags} {h : Shift} {s : State}
    (runs : exec i s = .next (stepReg op State.setA s.cpu.a 2 s))
    (computes : op s.cpu.a s.cpu.flags = h.op s.cpu.a s.cpu.flags) :
    ∃ t, exec i s = .next t ∧ t = onlyCpu s (ended 2 { s.cpu with
      a := h.byte s.cpu.a s.cpu.flags, flags := h.flags s.cpu.a s.cpu.flags }) ∧ MemoryKept s t :=
  stepReg_effect (put := fun v c => { c with a := v }) runs rfl computes

/-- Settles O32: on the accumulator each is one operation on A, in memory one read-modify-write. -/
theorem shiftsAndRotates : Obligations.ShiftsAndRotates := by
  constructor
  · intro r mem s
    simp only [shiftAccRows, List.mem_cons, List.not_mem_nil, or_false] at mem
    rcases mem with rfl | rfl | rfl | rfl
    · exact ⟨rfl, rfl, shiftAcc_effect rfl (aslOp_eq s.cpu.a s.cpu.flags)⟩
    · exact ⟨rfl, rfl, shiftAcc_effect rfl (lsrOp_eq s.cpu.a s.cpu.flags)⟩
    · exact ⟨rfl, rfl, shiftAcc_effect rfl (rolOp_eq s.cpu.a s.cpu.flags)⟩
    · exact ⟨rfl, rfl, shiftAcc_effect rfl (rorOp_eq s.cpu.a s.cpu.flags)⟩
  · intro z a s ram prgRam r mem
    simp only [shiftMemRows, List.mem_append, List.mem_map] at mem
    obtain ((⟨_, row, rfl⟩ | ⟨_, row, rfl⟩) | ⟨_, row, rfl⟩) | ⟨_, row, rfl⟩ := mem
    · exact (aslRows_run row).rmw_effect ram prgRam (aslOp_eq _ _)
    · exact (lsrRows_run row).rmw_effect ram prgRam (lsrOp_eq _ _)
    · exact (rolRows_run row).rmw_effect ram prgRam (rolOp_eq _ _)
    · exact (rorRows_run row).rmw_effect ram prgRam (rorOp_eq _ _)

end Sys2Proof.Claims

/-! # Control flow (43_cpu_control.md) -/

namespace Sys2Proof.Machine

/-! ## The end of an instruction, and frames one after the other -/

theorem finish_memoryKept (n : Nat) (s : State) : MemoryKept s (s.finish n) := memoryKept_withCpu s _

theorem UnitsKept.finish {s t : State} (h : UnitsKept s t) (n : Nat) : UnitsKept s (t.finish n) :=
  { h with }

theorem RestKept.trans {s t u : State} (h : RestKept s t) (h' : RestKept t u) : RestKept s u :=
  ⟨h'.vram.trans h.vram, h'.palette.trans h.palette, h'.apu.trans h.apu, h'.prgRam.trans h.prgRam,
    h'.chrRam.trans h.chrRam, h'.mapper.trans h.mapper, h'.buttons0.trans h.buttons0, h'.buttons1.trans h.buttons1,
    h'.cfg.trans h.cfg, h'.snap.trans h.snap, h'.frameCycle.trans h.frameCycle, h'.undSeen.trans h.undSeen,
    h'.framesReady.trans h.framesReady⟩

/-! ## The stack and the interrupt entry -/

/-- A slot less than a page below another is a different cell. -/
theorem sameCell_stack_sub {k : Byte} (h : k ≠ 0) (sp : Byte) : sameCell (stackAddr (sp - k)) (stackAddr sp) = false :=
  sameCell_stack (by bv_omega)

theorem interrupt_finish_cpu (k : IntKind) (n : Nat) (s : State) : ((interrupt k s).finish n).cpu = { s.cpu with
    sp := s.cpu.sp - 3, flags := { s.cpu.flags with i := true }
    pc := word (byteAt s (k.vector + 1)) (byteAt s k.vector), wait := n - 1 + s.cpu.dmaStall, dmaStall := 0 } := by
  rw [State.finish_cpu, interrupt_cpu]

/-- The entry sequence, with its cycles counted, has the effect and the frame of 60_exceptions.md R410 and R411. -/
theorem interrupt_finish_entryEffect (k : IntKind) (n : Nat) {s : State} (wf : s.ram.wf = true) :
    EntryEffect k s ((interrupt k s).finish n) := by
  have memory (b : Word) (mem : isMemory b = true) :=
    (finish_memoryKept n (interrupt k s) b mem).trans (byteAt_interrupt k s wf mem)
  have slot (sp : Byte) := memory (stackAddr sp) (isMemory_ram (stackAddr_ram sp))
  have apart : sameCell (stackAddr (s.cpu.sp - 2)) (stackAddr (s.cpu.sp - 1)) = false := sameCell_stack (by bv_omega)
  have cpu := interrupt_finish_cpu k n s
  exact
    { (interrupt_units k s).finish n with
      pushedHigh := by
        rw [slot, sameCell_stack_sub (by decide), sameCell_stack_sub (by decide), sameCell_self]; rfl
      pushedLow := by rw [slot, apart, sameCell_self]; rfl
      pushedStatus := by rw [slot, sameCell_self]; rfl
      sp := by rw [cpu]
      flags := by rw [cpu]
      pc := by rw [cpu]
      a := by rw [cpu]
      x := by rw [cpu]
      y := by rw [cpu]
      cyc := by rw [cpu]
      memory := fun b mem off => by
        have status : sameCell (stackAddr (s.cpu.sp - 2)) b = false := off 2 (by decide)
        have low : sameCell (stackAddr (s.cpu.sp - 1)) b = false := off 1 (by decide)
        have high : sameCell (stackAddr s.cpu.sp) b = false := by simpa using off 0 (by decide)
        rw [memory b mem, status, low, high]
        rfl }

end Sys2Proof.Machine

namespace Sys2Proof.Claims

open Sys2Proof.Machine

/-- An instruction that only puts another CPU record in place keeps all memory. -/
theorem onlyCpu_effect {i : Instr} {s : State} {c : Cpu} (runs : exec i s = .next (onlyCpu s c)) :
    ∃ t, exec i s = .next t ∧ t = onlyCpu s c ∧ MemoryKept s t :=
  ⟨_, runs, rfl, memoryKept_withCpu s c⟩

/-! ## Jumps (R215, R216) -/

/-- What two reads, one after the other, and a change of the CPU leave as it was. -/
theorem twoReads_frame (a b : Word) (s : State) (c : Cpu) :
    let t := onlyCpu (cpuRead b (cpuRead a s).2).2 c
    MemoryKept s t ∧ RestKept s t ∧
      (hasReadEffect a = false → hasReadEffect b = false → t.ppu = s.ppu ∧ t.pads = s.pads) := by
  have first := cpuRead_frame a s
  have second := (cpuRead_frame b (cpuRead a s).2).withCpu c
  refine ⟨first.memory.trans second.memory, first.toRestKept.trans second.toRestKept, fun quietA quietB => ?_⟩
  rw [cpuRead_quiet quietA, cpuRead_quiet quietB]
  exact ⟨rfl, rfl⟩

/-- The second byte of a JMP pointer is at the next address modulo 256 in the page of the first. -/
theorem pointerHigh_eq (p : Word) :
    word (field p 8 8) (field p 0 8 + 1) = BitVec.ofNat 16 (256 * (p.toNat / 256) + (p.toNat + 1) % 256) := by
  have page : (field p 8 8).toNat = p.toNat / 256 % 256 := field_toNat p 8 8
  have next : (field p 0 8 + 1).toNat = (p.toNat / 1 % 256 + 1) % 256 :=
    (BitVec.toNat_add ..).trans (congrArg (fun n => (n + 1) % 256) (field_toNat p 0 8))
  apply BitVec.eq_of_toNat_eq
  rw [word_toNat, page, next, BitVec.toNat_ofNat]
  have := p.isLt
  omega

theorem jumpIndirect_eq (p : Word) (n : Nat) (s : State) :
    let hiAddr : Word := BitVec.ofNat 16 (256 * (p.toNat / 256) + (p.toNat + 1) % 256)
    let s1 := (cpuRead p s).2
    jumpIndirect p n s =
      onlyCpu (cpuRead hiAddr s1).2 (ended n { s.cpu with pc := word (byteAt s1 hiAddr) (byteAt s p) }) := by
  intro hiAddr s1
  have sameCpu : (cpuRead hiAddr s1).2.cpu = s.cpu := by rw [cpuRead_cpu, cpuRead_cpu]
  rw [← sameCpu]
  unfold jumpIndirect jmpPointer
  rw [pointerHigh_eq]
  rfl

/-- Settles O33: JMP absolute changes PC alone; JMP indirect has the frames of its two reads, one after the other. -/
theorem jumps : Obligations.Jumps := fun s p =>
  ⟨⟨rfl, onlyCpu_effect rfl⟩, rfl, _, congrArg Host.Outcome.next (jumpIndirect_eq p 5 s), rfl, twoReads_frame p _ s _⟩

/-! ## Calls and returns (R217 to R219) -/

/-- Settles O34: a call is two pushes, into different slots. -/
theorem subroutineCall : Obligations.SubroutineCall := by
  intro s a wf
  have returnAddr : (s.cpu.pc - 1).toNat = (s.cpu.pc.toNat + 65535) % 65536 := by bv_omega
  have memory (b : Word) (mem : isMemory b = true) :=
    (finish_memoryKept 6 (callSubroutine a s) b mem).trans (byteAt_callSubroutine a s wf mem)
  refine ⟨rfl, _, rfl, ?_, ?_, ?_, fun b mem off => ?_, (callSubroutine_units a s).finish 6⟩
  · rw [State.finish_cpu, callSubroutine_cpu]
    rfl
  · rw [memory _ (isMemory_ram (stackAddr_ram _)), sameCell_stack_sub (by decide), sameCell_self]
    exact (field_toNat _ 8 8).trans (by omega)
  · rw [memory _ (isMemory_ram (stackAddr_ram _)), sameCell_self]
    exact (field_toNat _ 0 8).trans (by omega)
  · have low : sameCell (stackAddr (s.cpu.sp - 1)) b = false := off 1 (by decide)
    have high : sameCell (stackAddr s.cpu.sp) b = false := by simpa using off 0 (by decide)
    rw [memory b mem, low, high]
    rfl

/-- Settles O35: both pull their bytes and change the CPU record alone. -/
theorem returns : Obligations.Returns := fun s =>
  ⟨⟨rfl, onlyCpu_effect (congrArg (fun t => Host.Outcome.next (State.finish 6 t)) (returnFromSubroutine_eq s))⟩,
    rfl, onlyCpu_effect (by
      rw [← ofByte_eq_flagsOf]
      exact congrArg (fun t => Host.Outcome.next (State.finish 6 t)) (returnFromInterrupt_eq s))⟩

/-! ## BRK (R220) -/

/-- Settles O36: BRK is the entry sequence from the state with PC moved on by one; like every instruction it leaves the
latches. -/
theorem breakTrap : Obligations.BreakTrap := by
  intro s wf
  have entry := interrupt_finish_entryEffect .brk 7 (s := s.setPc (s.cpu.pc + 1)) wf
  obtain ⟨nmi, irq⟩ := exec_latches (i := .brk) (s := s) rfl
  refine ⟨rfl, _, rfl, entry, ?_, ?_, ?_, rfl, nmi, irq⟩
  · exact (congrArg BitVec.toNat entry.pushedStatus).trans (toByte_toNat true s.cpu.flags)
  · refine entry.pc.trans ?_
    rw [byteAt_setPc _ _ _ (by decide), byteAt_setPc _ _ _ (by decide)]
    rfl
  · rw [interrupt_finish_cpu]
    rfl

/-! ## Branches (R221 to R229) -/

/-- The displacement is added as a signed number modulo 65536. -/
theorem branchTarget_eq (d : Byte) (s : State) : branchTarget d s = BitVec.ofInt 16 (s.cpu.pc.toNat + s8 d) := by
  rw [s8_eq_toInt, BitVec.ofInt_add, BitVec.ofInt_natCast, BitVec.ofNat_toNat, BitVec.setWidth_eq]
  rfl

/-- The common branch rule, with the page-cross cycle in numbers. -/
theorem branch_eq (taken : Bool) (d : Byte) (s : State) :
    let target : Word := BitVec.ofInt 16 (s.cpu.pc.toNat + s8 d)
    branch taken d 2 s = onlyCpu s (ended
      (if taken then (if s.cpu.pc.toNat / 256 = target.toNat / 256 then 3 else 4) else 2)
      { s.cpu with pc := if taken then target else s.cpu.pc }) := by
  intro target
  cases taken with
  | false => rfl
  | true =>
    have cycles : 2 + 1 + (pageCross s.cpu.pc target).toNat =
        if s.cpu.pc.toNat / 256 = target.toNat / 256 then 3 else 4 := by
      rw [pageCross_eq]
      split <;> rfl
    rw [if_pos rfl, if_pos rfl, ← cycles, branch, branchTarget_eq]
    rfl

/-- Every row is the common branch rule on its condition. -/
theorem branchRows_run {d : Byte} {r : BranchRow} (mem : r ∈ branchRows d) :
    encode r.instr = [r.opcode, d] ∧ r.instr.form = (r.mnemonic, .rel d) ∧
      ∀ s, exec r.instr s = .next (branch (r.taken s.cpu.flags) d 2 s) := by
  simp only [branchRows, List.mem_cons, List.not_mem_nil, or_false] at mem
  rcases mem with rfl | rfl | rfl | rfl | rfl | rfl | rfl | rfl <;> exact ⟨rfl, rfl, fun _ => rfl⟩

/-- Settles O37: every row is a branch on its condition. -/
theorem branches : Obligations.Branches := by
  intro d r mem s
  obtain ⟨bytes, form, runs⟩ := branchRows_run mem
  exact ⟨bytes, form, onlyCpu_effect ((runs s).trans (congrArg _ (branch_eq (r.taken s.cpu.flags) d s)))⟩

/-! ## The flag instructions, NOP and UND (R230 to R237, 44_cpu_undefined.md R240) -/

/-- Settles O38: a flag instruction or NOP changes the CPU record alone, UND the model's mark with it. -/
theorem flagInstructionsAndNoOps : Obligations.FlagInstructionsAndNoOps := by
  refine ⟨fun r mem s => ?_, fun op s => ⟨rfl, _, rfl, rfl, byteAt_congr rfl rfl rfl rfl⟩⟩
  simp only [flagRows, List.mem_cons, List.not_mem_nil, or_false] at mem
  rcases mem with rfl | rfl | rfl | rfl | rfl | rfl | rfl | rfl <;> exact ⟨rfl, rfl, onlyCpu_effect rfl⟩

end Sys2Proof.Claims

/-! # The picture unit (45_ppu.md) -/

namespace Sys2Proof.Machine

open Sys2Proof.Claims

/-! ## The registers (R250 to R262) -/

theorem cpuWrite_ppuWindow {a : Word} (low : 0x2000 ≤ a) (high : a < 0x4000) (d : Byte) (s : State) :
    cpuWrite a d s = ppuWriteReg (field a 0 3) d s := by
  rw [cpuWrite, if_neg (by bv_omega), if_pos high]

/-- The increment of v in numbers: the sum wraps modulo 32768 (R258, R259). -/
theorem advanceV_eq (p : Ppu) : p.advanceV = { p with
    v := BitVec.ofNat 15 (p.v.toNat + (if p.ctrl.getLsbD 2 then 32 else 1)) } := by
  rw [BitVec.ofNat_add, BitVec.ofNat_toNat, BitVec.setWidth_eq]
  unfold Ppu.advanceV Ppu.inc32
  split <;> rfl

/-- The status byte in numbers: the three flags are bits 7 to 5 (R256). -/
theorem readStatus_toNat (s : State) : (readStatus s).1.toNat =
    128 * s.ppu.vblank.toNat + 64 * s.ppu.spr0hit.toNat + 32 * s.ppu.overflow.toNat := by
  unfold readStatus
  cases s.ppu.vblank <;> cases s.ppu.spr0hit <;> cases s.ppu.overflow <;> rfl

/-- A PPUDATA write in numbers (R259). -/
theorem writeData_eq (d : Byte) (s : State) : writeData d s =
    (let u := ppuWrite (BitVec.ofNat 16 (s.ppu.v.toNat % 16384)) d s
     { u with ppu := { u.ppu with
       v := BitVec.ofNat 15 (s.ppu.v.toNat + (if s.ppu.ctrl.getLsbD 2 then 32 else 1)) } }) := by
  rw [writeData, ppuAddr_eq]
  dsimp only
  rw [advanceV_eq, ppuWrite_ppu]

/-- Settles O44, register by register: a mirror is decoded by the low three bits of its address. -/
theorem pictureRegisters : Obligations.PictureRegisters := by
  intro a d s low high
  have reads : cpuRead a s = ppuReadReg (field a 0 3) s := cpuRead_ppuWindow low high s
  have writes : cpuWrite a d s = ppuWriteReg (field a 0 3) d s := cpuWrite_ppuWindow low high d s
  unfold ppuReadReg at reads
  unfold ppuWriteReg at writes
  rw [field_low3] at reads writes
  refine ⟨fun reg => ?_, fun reg => ?_, fun reg => ?_, fun reg => ?_, fun reg => ?_, fun reg => ?_, fun reg => ?_,
    fun reg => ?_⟩ <;> rw [reg] at reads writes
  · exact writes
  · exact writes
  · rw [reads]
    exact ⟨writes, readStatus_toNat s, rfl⟩
  · exact writes
  · exact ⟨reads, writes⟩
  · exact writes
  · exact writes
  · exact ⟨reads, writes.trans (writeData_eq d s)⟩

/-! ## PPUDATA (R258, R259, R261) -/

/-- A nametable or palette byte is read back, whatever the cartridge (R106, R107). -/
theorem ppuRead_ppuWrite_same {a : Word} (low : 0x2000 ≤ a) (high : a < 0x4000) (d : Byte) {s : State}
    (vram : s.vram.wf = true) (palette : s.palette.wf = true) : ppuRead (ppuWrite a d s) a = d := by
  by_cases nametable : a < 0x3F00
  · rw [ppuWrite_nametable low nametable, ppuRead_nametable low nametable]
    exact Memory.read_write_same vram _ _
  · have inPalette : 0x3F00 ≤ a := by bv_omega
    exact ppuRead_ppuWrite_palette inPalette high inPalette high rfl d palette

/-- The scroll address that two writes of PPUADDR leave in t and v (R261). -/
def spelledAddr (t : BitVec 15) (hi lo : Byte) : BitVec 15 :=
  putField (putField (putField t 8 6 (field hi 0 6)) 14 1 0) 0 8 lo

/-- It is the 14 bits the two bytes spell, high byte first. -/
theorem spelledAddr_toNat (t : BitVec 15) (hi lo : Byte) :
    (spelledAddr t hi lo).toNat = 256 * (hi.toNat % 64) + lo.toNat := by
  have six : (field hi 0 6).toNat = hi.toNat / 1 % 64 := field_toNat hi 0 6
  have zero : (0 : BitVec 1).toNat = 0 := rfl
  have bound := (putField (putField t 8 6 (field hi 0 6)) 14 1 0).isLt
  have high := putField_toNat (putField t 8 6 (field hi 0 6)) 14 1 0 (by decide)
  rw [putField_toNat t 8 6 _ (by decide), six] at high
  rw [spelledAddr, putLow_toNat _ _ _ (by decide)]
  omega

/-- With the toggle clear, two writes of 0x2006 leave the address they spell and the toggle clear. -/
theorem writesOf_address {s : State} (clear : s.ppu.w = false) (hi lo : Byte) :
    writesOf [(0x2006, hi), (0x2006, lo)] s = { s with ppu := { s.ppu with
      t := spelledAddr s.ppu.t hi lo, v := spelledAddr s.ppu.t hi lo, w := false } } := by
  have first : cpuWrite 0x2006 hi s = { s with ppu := writeAddr hi s.ppu } := rfl
  rw [writesOf, first, writeAddr, clear]
  rfl

/-- Settles O45: the two address writes leave their 14 bits in v, and the data write goes to that address. -/
theorem pictureDataWrite : Obligations.PictureDataWrite := by
  intro hi lo d s clear vram palette t a
  have stored : t = writeData d (writesOf [(0x2006, hi), (0x2006, lo)] s) := rfl
  have number : (spelledAddr s.ppu.t hi lo).toNat = a := spelledAddr_toNat s.ppu.t hi lo
  have bound : a < 16384 := by
    have := lo.isLt
    have := Nat.mod_lt hi.toNat (show 0 < 64 by decide)
    omega
  rw [stored, writesOf_address clear, writeData_eq]
  dsimp only
  rw [number, Nat.mod_eq_of_lt bound]
  refine ⟨?_, ?_, fun low => ?_, byteAt_congr ?_ ?_ ?_ ?_⟩
  · rw [BitVec.toNat_ofNat]
    split <;> omega
  · rw [ppuWrite_ppu]
  · exact ppuRead_ppuWrite_same (by bv_omega) (by bv_omega) d vram palette
  · exact ppuWrite_ram ..
  · exact ppuWrite_prgRam ..
  · exact ppuWrite_mapper ..
  · exact congrArg Config.cart (ppuWrite_cfg ..)

theorem readData_below {s : State} (h : s.ppu.addr < 0x3F00) : (readData s).1 = s.ppu.readBuf := by
  rw [readData, if_pos h]

theorem readData_palette {s : State} (h : ¬ s.ppu.addr < 0x3F00) : (readData s).1 = ppuRead s s.ppu.addr := by
  rw [readData, if_neg h]

/-- Settles O46: the byte of a read and the state after it, below the palette and in it. -/
theorem pictureDataReadIsBuffered : Obligations.PictureDataReadIsBuffered := by
  intro s a s1
  have addr : s.ppu.addr = a := ppuAddr_eq s.ppu
  have after : s1 = _ := readData_state s
  have advanced : s1.ppu = { s.ppu.advanceV with readBuf := s1.ppu.readBuf } := by rw [after]; rfl
  have below (u : State) (h : u.ppu.addr < 0x3F00) : byteAt u 0x2007 = u.ppu.readBuf := readData_below h
  have refill (h : a < 0x3F00) : s1.ppu.readBuf = ppuRead s a := by rw [after, addr, if_pos h]
  refine ⟨fun h => ⟨below s (addr ▸ h), refill h⟩, fun h => ?_, fun next h => ?_, ?_⟩
  · have inPalette : ¬ a < 0x3F00 := by bv_omega
    have byte : byteAt s 0x2007 = _ := readData_palette (addr ▸ inPalette)
    exact ⟨by rw [byte, addr], by rw [after, addr, if_neg inPalette]⟩
  · have nextBelow : s1.ppu.addr < 0x3F00 := by rw [ppuAddr_eq]; bv_omega
    rw [below s1 nextBelow, refill h]
  · rw [advanced, advanceV_eq]
    exact BitVec.toNat_ofNat ..

/-! ## Masks and disjoint parts of an address, in numbers -/

/-- Masking a number with `len` ones from bit `lo` on keeps that field at its place. -/
theorem and_field_mask (n lo len : Nat) : n &&& (2 ^ lo * (2 ^ len - 1)) = 2 ^ lo * (n / 2 ^ lo % 2 ^ len) := by
  apply Nat.eq_of_testBit_eq
  intro i
  simp only [Nat.testBit_and, Nat.testBit_two_pow_mul, Nat.testBit_two_pow_sub_one, Nat.testBit_mod_two_pow,
    Nat.testBit_div_two_pow]
  by_cases h : lo ≤ i
  · simp [h, Bool.and_comm]
  · simp [h]

theorem and_mask_toNat {n : Nat} (v mask : BitVec n) (lo len : Nat) (h : mask.toNat = 2 ^ lo * (2 ^ len - 1)) :
    (v &&& mask).toNat = 2 ^ lo * (v.toNat / 2 ^ lo % 2 ^ len) := by
  rw [BitVec.toNat_and, h, and_field_mask]

/-- The union of a multiple of 2 ^ k and a number below it is their sum. -/
theorem or_toNat {n : Nat} (k : Nat) {x y : BitVec n} (hx : x.toNat % 2 ^ k = 0) (hy : y.toNat < 2 ^ k) :
    (x ||| y).toNat = x.toNat + y.toNat := by
  obtain ⟨m, hm⟩ := Nat.dvd_of_mod_eq_zero hx
  rw [BitVec.toNat_or, hm, Nat.two_pow_add_eq_or_of_lt hy]

theorem getLsbD_eq_decide {n : Nat} (v : BitVec n) (k : Nat) : v.getLsbD k = decide (v.toNat / 2 ^ k % 2 = 1) :=
  Nat.testBit_eq_decide_div_mod_eq

theorem tableBit_toNat (b : Bool) : ((BitVec.ofBool b).setWidth 16 <<< 12 : Word).toNat = 4096 * b.toNat := by
  cases b <;> rfl

theorem tileWord_toNat (b : Byte) : (b.setWidth 16 <<< 4 : Word).toNat = 16 * b.toNat := by
  have := b.isLt
  rw [BitVec.toNat_shiftLeft, BitVec.toNat_setWidth, Nat.shiftLeft_eq]
  omega

/-- A pattern address: table, tile and row lie in different bits (20_memory.md R110). -/
theorem patternAddr_eq (table : Bool) (tile : Byte) {row : Nat} (h : row < 8) :
    ((BitVec.ofBool table).setWidth 16 <<< 12 ||| tile.setWidth 16 <<< 4 ||| BitVec.ofNat 16 row : Word) =
      BitVec.ofNat 16 (4096 * table.toNat + 16 * tile.toNat + row) := by
  have tileLt := tile.isLt
  have tableLe := table.toNat_le
  have tableNumber := tableBit_toNat table
  have tileNumber := tileWord_toNat tile
  have rowNumber : (BitVec.ofNat 16 row).toNat = row := (BitVec.toNat_ofNat ..).trans (Nat.mod_eq_of_lt (by omega))
  have upper := or_toNat 12 (x := (BitVec.ofBool table).setWidth 16 <<< 12) (y := tile.setWidth 16 <<< 4) (by omega)
    (by omega)
  apply BitVec.eq_of_toNat_eq
  rw [or_toNat 4 (by omega) (by omega), upper, tableNumber, tileNumber, rowNumber, BitVec.toNat_ofNat]
  omega

/-- In 8 x 16 sprites bit 0 of the tile selects the table (R280). -/
theorem tallPatternAddr_eq (tile : Byte) (row : Nat) :
    ((tile.setWidth 16 &&& 1) <<< 12 + (tile.setWidth 16 &&& 0xFE) <<< 4 + BitVec.ofNat 16 row : Word) =
      BitVec.ofNat 16 (4096 * (tile.toNat % 2) + 16 * (tile.toNat / 2 * 2) + row) := by
  have tileLt := tile.isLt
  have number : (tile.setWidth 16 : Word).toNat = tile.toNat := by rw [BitVec.toNat_setWidth]; omega
  have table : ((tile.setWidth 16 &&& 1) <<< 12 : Word) = BitVec.ofNat 16 (4096 * (tile.toNat % 2)) := by
    have bit := and_mask_toNat (tile.setWidth 16) 1 0 1 rfl
    apply BitVec.eq_of_toNat_eq
    rw [BitVec.toNat_shiftLeft, Nat.shiftLeft_eq, bit, number, BitVec.toNat_ofNat]
    omega
  have pair : ((tile.setWidth 16 &&& 0xFE) <<< 4 : Word) = BitVec.ofNat 16 (16 * (tile.toNat / 2 * 2)) := by
    have bits := and_mask_toNat (tile.setWidth 16) 0xFE 1 7 rfl
    apply BitVec.eq_of_toNat_eq
    rw [BitVec.toNat_shiftLeft, Nat.shiftLeft_eq, bits, number, BitVec.toNat_ofNat]
    omega
  rw [table, pair, BitVec.ofNat_add, BitVec.ofNat_add]

/-! ## The background pixel (R278) -/

/-- The 2-bit value of a tile row's column (20_memory.md R110). -/
theorem patternValue_toNat (s : State) {a : Word} {n : Nat} (h : a = BitVec.ofNat 16 n) (k : Nat) :
    (patternValue (ppuRead s a) (ppuRead s (a + 8)) k).toNat = tilePixel s n k := by
  have plane (lo hi : Bool) : (BitVec.ofBool hi ++ BitVec.ofBool lo).toNat = 2 * hi.toNat + lo.toNat := by
    cases lo <;> cases hi <;> rfl
  have next : a + 8 = BitVec.ofNat 16 (n + 8) := by rw [h, BitVec.ofNat_add]; rfl
  have bit (b : Byte) : (b.getLsbD (7 - k)).toNat = b.toNat / 2 ^ (7 - k) % 2 := Nat.toNat_testBit ..
  unfold tilePixel planeValue
  rw [next, h, patternValue, plane, bit, bit]

theorem scrollWord_toNat (v : BitVec 15) : (v.setWidth 16 : Word).toNat = v.toNat := by
  have := v.isLt
  rw [BitVec.toNat_setWidth]
  omega

/-- A field of the scroll address, moved to another place. -/
theorem scrollField_toNat (v : BitVec 15) (mask : Word) (k lo len : Nat) (h : mask.toNat = 2 ^ lo * (2 ^ len - 1)) :
    ((v.setWidth 16 >>> k) &&& mask).toNat = 2 ^ lo * (v.toNat / 2 ^ (k + lo) % 2 ^ len) := by
  rw [and_mask_toNat _ _ lo len h, BitVec.toNat_ushiftRight, scrollWord_toNat, Nat.shiftRight_eq_div_pow,
    Nat.div_div_eq_div_mul, ← Nat.pow_add]

theorem nametableAddr_eq (v : BitVec 15) :
    (0x2000 ||| (v.setWidth 16 &&& 0x0FFF) : Word) = BitVec.ofNat 16 (0x2000 + v.toNat % 4096) := by
  have cell : (v.setWidth 16 &&& 0x0FFF : Word).toNat = 1 * (v.toNat / 1 % 4096) :=
    scrollField_toNat v 0x0FFF 0 0 12 rfl
  have base : (0x2000 : Word).toNat = 8192 := rfl
  apply BitVec.eq_of_toNat_eq
  rw [or_toNat 13 (by decide) (by omega), cell, BitVec.toNat_ofNat]
  omega

/-- The parts of a tile's palette-byte address lie in different bits: nametable, row and column. -/
theorem attrParts_toNat {x y z : Word} {table row column : Nat} (hx : x.toNat = 1024 * table) (ht : table < 4)
    (hy : y.toNat = 8 * row) (hr : row < 8) (hz : z.toNat = column) (hc : column < 8) :
    (0x23C0 ||| x ||| y ||| z).toNat = 0x23C0 + 1024 * table + 8 * row + column := by
  have base : (0x23C0 ||| x).toNat = 0x23C0 + 1024 * table := by
    have reordered : 0x23C0 ||| x = 0x2000 ||| x ||| 0x03C0 := by
      rw [BitVec.or_assoc, BitVec.or_comm x, ← BitVec.or_assoc]
      rfl
    have upper : (0x2000 ||| x).toNat = 8192 + x.toNat := or_toNat 13 (by decide) (by omega)
    rw [reordered, or_toNat 10 (by omega) (by decide), upper, hx]
    show _ + 960 = _
    omega
  have rows : (0x23C0 ||| x ||| y).toNat = 0x23C0 + 1024 * table + 8 * row := by
    rw [or_toNat 6 (by omega) (by omega), base, hy]
  rw [or_toNat 3 (by omega) (by omega), rows, hz]

theorem attrAddr_eq (v : BitVec 15) :
    (0x23C0 ||| (v.setWidth 16 &&& 0x0C00) ||| ((v.setWidth 16 >>> 4) &&& 0x38) |||
      ((v.setWidth 16 >>> 2) &&& 0x07) : Word) =
      BitVec.ofNat 16 (0x23C0 + 1024 * nametable v + 8 * (coarseY v / 4) + coarseX v / 4) := by
  have table : (v.setWidth 16 &&& 0x0C00 : Word).toNat = 1024 * nametable v := scrollField_toNat v 0x0C00 0 10 2 rfl
  have row : ((v.setWidth 16 >>> 4) &&& 0x38 : Word).toNat = 8 * (coarseY v / 4) := by
    rw [scrollField_toNat v 0x38 4 3 3 rfl, coarseY]
    omega
  have column : ((v.setWidth 16 >>> 2) &&& 0x07 : Word).toNat = coarseX v / 4 := by
    rw [scrollField_toNat v 0x07 2 0 3 rfl, coarseX]
    omega
  have tableLt : nametable v < 4 := Nat.mod_lt _ (by decide)
  have rowLt : coarseY v / 4 < 8 := Nat.div_lt_of_lt_mul (Nat.mod_lt _ (by decide))
  have columnLt : coarseX v / 4 < 8 := Nat.div_lt_of_lt_mul (Nat.mod_lt _ (by decide))
  apply BitVec.eq_of_toNat_eq
  refine (attrParts_toNat table tableLt row rowLt column columnLt).trans ?_
  rw [BitVec.toNat_ofNat]
  omega

/-- The place of a tile's two palette bits in that byte. -/
theorem attrShift_eq (v : BitVec 15) :
    (((v.setWidth 16 >>> 4) &&& 4) ||| (v.setWidth 16 &&& 2) : Word).toNat =
      2 * (2 * (coarseY v / 2 % 2) + coarseX v / 2 % 2) := by
  have row : ((v.setWidth 16 >>> 4) &&& 4 : Word).toNat = 4 * (coarseY v / 2 % 2) := by
    rw [scrollField_toNat v 4 4 2 1 rfl, coarseY]
    omega
  have column : (v.setWidth 16 &&& 2 : Word).toNat = 2 * (coarseX v / 2 % 2) := by
    refine (scrollField_toNat v 2 0 1 1 rfl).trans ?_
    rw [coarseX]
    omega
  rw [or_toNat 2 (by omega) (by omega), row, column]
  omega

/-- The two palette bits of a tile. -/
theorem attrField_toNat (b : Byte) (v : BitVec 15) :
    (field b (((v.setWidth 16 >>> 4) &&& 4) ||| (v.setWidth 16 &&& 2) : Word).toNat 2).toNat =
      b.toNat / 4 ^ (2 * (coarseY v / 2 % 2) + coarseX v / 2 % 2) % 4 := by
  have shift := (congrArg (2 ^ ·) (attrShift_eq v)).trans (Nat.pow_mul 2 2 _)
  exact (field_toNat b _ 2).trans (congrArg (fun weight => b.toNat / weight % 4) shift)

theorem fineYWord_eq (v : BitVec 15) : ((field v 12 3).setWidth 16 : Word) = BitVec.ofNat 16 (fineY v) := by
  have row := field_toNat v 12 3
  have := v.isLt
  apply BitVec.eq_of_toNat_eq
  rw [BitVec.toNat_setWidth, BitVec.toNat_ofNat, row, fineY]
  omega

theorem fineY_lt (v : BitVec 15) : fineY v < 8 := Nat.div_lt_of_lt_mul v.isLt

/-- A layer is hidden at a column (R278, R279): off, or in the left eight columns and cut there. -/
theorem hidden_iff (shown left : Bool) (c : Nat) :
    (!shown || (decide (c < 8) && !left)) = true ↔ shown = false ∨ (c < 8 ∧ left = false) := by
  simp only [Bool.or_eq_true, Bool.and_eq_true, Bool.not_eq_true', decide_eq_true_eq]

/-- The background pixel in numbers. -/
theorem bgPixel_toNat (s : State) (c : Nat) :
    ((bgPixel s c).pv.toNat, (bgPixel s c).pal.toNat) = backgroundAt s c := by
  unfold bgPixel backgroundAt Ppu.showBg Ppu.bgLeft
  dsimp only
  by_cases hidden : s.ppu.mask.getLsbD 3 = false ∨ (c < 8 ∧ s.ppu.mask.getLsbD 1 = false)
  · rw [if_pos ((hidden_iff _ _ c).2 hidden), if_pos hidden]
    rfl
  · rw [if_neg (fun h => hidden ((hidden_iff _ _ c).1 h)), if_neg hidden, nametableAddr_eq, attrAddr_eq,
      fineYWord_eq]
    refine Prod.ext (patternValue_toNat s (patternAddr_eq _ _ (fineY_lt _)) _) ?_
    exact attrField_toNat _ s.ppu.v

/-! ## The sprite pixel (R279, R280) -/

theorem flippedRow_lt {flipped : Prop} [Decidable flipped] {top line h : Nat} (on : top ≤ line ∧ line < top + h) :
    (if flipped then h - 1 - (line - top) else line - top) < h := by
  split <;> omega

theorem verticalFlip_iff (attr : Byte) : attr.getLsbD 7 = true ↔ attr.toNat / 128 = 1 := by
  have := attr.isLt
  rw [bit7_eq, decide_eq_true_eq]
  omega

theorem horizontalFlip_iff (attr : Byte) : attr.getLsbD 6 = true ↔ attr.toNat / 64 % 2 = 1 := by
  rw [bit6_eq, decide_eq_true_eq]
  omega

/-- The pattern address of a sprite's row (R280), in numbers. -/
theorem sprRowAddr_eq (p : Ppu) (i line : Nat) :
    let top := (p.oam.read (4 * i)).toNat + 1
    let tile := (p.oam.read (4 * i + 1)).toNat
    let attr := (p.oam.read (4 * i + 2)).toNat
    let h := if p.ctrl.getLsbD 5 then 16 else 8
    let row := if attr / 128 = 1 then h - 1 - (line - top) else line - top
    sprRowAddr p i line = if top ≤ line ∧ line < top + h then
      some (BitVec.ofNat 16 (if h = 8 then 4096 * (p.ctrl.getLsbD 3).toNat + 16 * tile + row
        else 4096 * (tile % 2) + 16 * (tile / 2 * 2) + (if row < 8 then row else row + 8)))
      else none := by
  unfold sprRowAddr Ppu.sprite Ppu.sprHeight Ppu.spr16
  dsimp only
  simp only [verticalFlip_iff, Nat.add_zero]
  by_cases on : (p.oam.read (4 * i)).toNat + 1 ≤ line ∧
      line < (p.oam.read (4 * i)).toNat + 1 + (if p.ctrl.getLsbD 5 then 16 else 8)
  · rw [if_pos on, if_neg (by omega)]
    cases tall : p.ctrl.getLsbD 5
    · rw [tall] at on
      exact congrArg some (patternAddr_eq _ _ (flippedRow_lt on))
    · exact congrArg some (tallPatternAddr_eq _ _)
  · rw [if_neg on, if_pos (by omega)]

/-- A sprite pixel as the statements write it. -/
def SprPix.numbers (px : SprPix) : Nat × Nat × Bool × Bool := (px.pv.toNat, px.pal.toNat, px.behind, px.zero)

/-- An opaque pixel of a sprite, in numbers. -/
theorem opaquePixel_numbers (s : State) {addr : Word} {n : Nat} (h : addr = BitVec.ofNat 16 n) (k : Nat) (attr : Byte)
    (zero : Bool) :
    (let pv := patternValue (ppuRead s addr) (ppuRead s (addr + 8)) k
     if pv = 0 then none
     else some { pv := pv, pal := field attr 0 2, behind := attr.getLsbD 5, zero := zero : SprPix }).map
      SprPix.numbers =
      if tilePixel s n k = 0 then none
      else some (tilePixel s n k, attr.toNat % 4, decide (attr.toNat / 32 % 2 = 1), zero) := by
  have value := patternValue_toNat s h k
  have palette : (field attr 0 2).toNat = attr.toNat % 4 :=
    (field_toNat attr 0 2).trans (congrArg (· % 4) (Nat.div_one _))
  have behind : attr.getLsbD 5 = decide (attr.toNat / 32 % 2 = 1) := getLsbD_eq_decide attr 5
  dsimp only
  generalize patternValue (ppuRead s addr) (ppuRead s (addr + 8)) k = pv at value
  rw [← value]
  by_cases transparent : pv = 0
  · rw [if_pos transparent, transparent]
    rfl
  · have shown : ¬ pv.toNat = 0 := fun e => transparent (BitVec.eq_of_toNat_eq e)
    rw [if_neg transparent, if_neg shown, ← palette, ← behind]
    exact Option.map_some ..

/-- A sprite at a column, in numbers. -/
theorem spriteAt_numbers (s : State) (c i : Nat) : (spriteAt s c i).map SprPix.numbers = spriteShows s c i := by
  unfold spriteAt spriteShows
  dsimp only
  rw [sprRowAddr_eq]
  unfold Ppu.sprite
  generalize (s.ppu.oam.read (4 * i)).toNat + 1 = top
  generalize s.ppu.oam.read (4 * i + 2) = attr
  generalize (s.ppu.oam.read (4 * i + 3)).toNat = left
  generalize (if s.ppu.ctrl.getLsbD 5 = true then 16 else 8) = height
  simp only [horizontalFlip_iff]
  by_cases column : c < left ∨ left + 7 < c
  · have outside : ¬ (left ≤ c ∧ c ≤ left + 7 ∧ top ≤ s.ppu.scanline ∧ s.ppu.scanline < top + height) := by omega
    rw [if_pos column, if_neg outside]
    rfl
  · rw [if_neg column]
    by_cases row : top ≤ s.ppu.scanline ∧ s.ppu.scanline < top + height
    · have inside : left ≤ c ∧ c ≤ left + 7 ∧ top ≤ s.ppu.scanline ∧ s.ppu.scanline < top + height := by omega
      rw [if_pos row, if_pos inside]
      exact opaquePixel_numbers s rfl _ attr _
    · have outside : ¬ (left ≤ c ∧ c ≤ left + 7 ∧ top ≤ s.ppu.scanline ∧ s.ppu.scanline < top + height) := by omega
      rw [if_neg row, if_neg outside]
      rfl

/-- The first sprite that shows at a column, in numbers. -/
theorem firstSprite_numbers (s : State) (c : Nat) (l : List Nat) :
    (firstSprite s c l).map SprPix.numbers = l.findSome? (spriteShows s c) := by
  induction l with
  | nil => rfl
  | cons i is ih =>
    rw [List.findSome?_cons, ← spriteAt_numbers, firstSprite]
    cases spriteAt s c i with
    | none => exact ih
    | some px => rfl

/-- The sprite pixel in numbers. -/
theorem sprPixel_numbers (s : State) (c : Nat) : (sprPixel s c).map SprPix.numbers = spriteLayer s c := by
  unfold sprPixel spriteLayer Ppu.showSpr Ppu.sprLeft
  by_cases hidden : s.ppu.mask.getLsbD 4 = false ∨ (c < 8 ∧ s.ppu.mask.getLsbD 2 = false)
  · rw [if_pos ((hidden_iff _ _ c).2 hidden), if_pos hidden]
    rfl
  · rw [if_neg (fun h => hidden ((hidden_iff _ _ c).1 h)), if_neg hidden, firstSprite_numbers]

/-- A sprite that shows is opaque (R279). -/
theorem spriteAt_opaque {s : State} {c i : Nat} {px : SprPix} (h : spriteAt s c i = some px) : px.pv ≠ 0 := by
  unfold spriteAt at h
  dsimp only at h
  obtain ⟨-, h⟩ := Option.ite_none_left_eq_some.1 h
  split at h
  · cases h
  · obtain ⟨shown, same⟩ := Option.ite_none_left_eq_some.1 h
    rw [← Option.some.inj same]
    exact shown

theorem firstSprite_opaque {s : State} {c : Nat} {l : List Nat} {px : SprPix} (h : firstSprite s c l = some px) :
    px.pv ≠ 0 := by
  induction l with
  | nil => cases h
  | cons i is ih =>
    rw [firstSprite] at h
    split at h
    · next here => exact spriteAt_opaque (here.trans h)
    · exact ih h

theorem sprPixel_opaque {s : State} {c : Nat} {px : SprPix} (h : sprPixel s c = some px) : px.pv ≠ 0 := by
  unfold sprPixel at h
  split at h
  · cases h
  · exact firstSprite_opaque h

/-! ## Composition and colour (R281 to R283) -/

theorem toNat_eq_zero_iff {n : Nat} (v : BitVec n) : v.toNat = 0 ↔ v = 0 :=
  ⟨fun h => BitVec.eq_of_toNat_eq (h.trans BitVec.toNat_zero.symm), fun h => by rw [h]; exact BitVec.toNat_zero⟩

/-- Only the entries 0x10, 0x14, 0x18, 0x1C have another name (R104). -/
theorem palIndex_of_plain {a : Nat} (h : ¬ (16 ≤ a % 32 ∧ a % 32 % 4 = 0)) : palIndex a = a % 32 := if_neg h

/-- An opaque background pixel shows an entry of the first half, at a number that is not a multiple of 4. -/
theorem palIndex_background {pal pv : BitVec 2} (shown : pv ≠ 0) :
    palIndex (paletteAddr 0x3F00 pal pv) = 4 * pal.toNat + pv.toNat := by
  have palLt := pal.isLt
  have pvLt := pv.isLt
  have pvNe := mt (toNat_eq_zero_iff pv).1 shown
  unfold paletteAddr
  rw [palIndex_of_plain (by omega)]
  omega

/-- An opaque sprite pixel shows one of the second half. -/
theorem palIndex_sprite {pal pv : BitVec 2} (shown : pv ≠ 0) :
    palIndex (paletteAddr 0x3F10 pal pv) = 16 + 4 * pal.toNat + pv.toNat := by
  have palLt := pal.isLt
  have pvLt := pv.isLt
  have pvNe := mt (toNat_eq_zero_iff pv).1 shown
  unfold paletteAddr
  rw [palIndex_of_plain (by omega)]
  omega

/-- The displayed entry in numbers (R281). -/
theorem palIndex_compose (s : State) (c : Nat) : palIndex (compose (bgPixel s c) (sprPixel s c)) = entryShown s c := by
  have clear := toNat_eq_zero_iff (bgPixel s c).pv
  unfold entryShown
  rw [← bgPixel_toNat, ← sprPixel_numbers]
  cases sprite : sprPixel s c with
  | none =>
    by_cases bg : (bgPixel s c).pv = 0
    · rw [compose, if_pos bg]
      exact (if_pos (clear.2 bg)).symm
    · rw [compose, if_neg bg, palIndex_background bg]
      exact (if_neg (mt clear.1 bg)).symm
  | some px =>
    have front := palIndex_sprite (pal := px.pal) (sprPixel_opaque sprite)
    by_cases bg : (bgPixel s c).pv = 0
    · rw [compose, if_pos bg, front]
      exact (if_neg fun behind => behind.1 (clear.2 bg)).symm
    · by_cases behind : px.behind = true
      · rw [compose, if_neg bg, if_pos behind, palIndex_background bg]
        exact (if_pos ⟨mt clear.1 bg, behind⟩).symm
      · rw [compose, if_neg bg, if_neg behind, front]
        exact (if_neg fun h => behind h.2).symm

/-- The colour of a pixel in numbers (R283). -/
theorem colour_toNat (s : State) (c : Nat) :
    (colour s (compose (bgPixel s c) (sprPixel s c))).toNat = colourShown s c := by
  unfold colour colourShown Ppu.grey
  rw [palIndex_compose]
  have six : ((s.palette.read (entryShown s c)).setWidth 6).toNat = (s.palette.read (entryShown s c)).toNat % 64 :=
    BitVec.toNat_setWidth ..
  by_cases grey : s.ppu.mask.getLsbD 0 = true
  · have upper := and_mask_toNat ((s.palette.read (entryShown s c)).setWidth 6) 0x30 4 2 rfl
    dsimp only
    rw [if_pos grey, if_pos grey, upper, six]
    omega
  · dsimp only
    rw [if_neg grey, if_neg grey, six]

/-- Sprite-0 hit in numbers (R282). -/
theorem sprite0Hits_eq (s : State) (c : Nat) : sprite0Hits (bgPixel s c) (sprPixel s c) c = hitAt s c := by
  unfold sprite0Hits hitAt
  rw [← bgPixel_toNat, ← sprPixel_numbers]
  cases sprPixel s c with
  | none => rfl
  | some px =>
    obtain ⟨pv, pal, behind, zero⟩ := px
    cases zero with
    | false => rfl
    | true =>
      show (true && !((bgPixel s c).pv == 0) && !(c == 255)) =
        (decide ((bgPixel s c).pv.toNat ≠ 0) && decide (c ≠ 255))
      rw [Bool.true_and, decide_not, decide_not, beq_eq_decide_eq, beq_eq_decide_eq]
      simp only [toNat_eq_zero_iff]

/-- A pixel shows the backdrop or an opaque value of one of the layers (R281). -/
theorem compose_cases (s : State) (c : Nat) :
    let pa := compose (bgPixel s c) (sprPixel s c)
    pa = 0x3F00 ∨ ∃ pal pv : BitVec 2, pv ≠ 0 ∧ (pa = paletteAddr 0x3F00 pal pv ∨ pa = paletteAddr 0x3F10 pal pv) := by
  dsimp only
  cases sprite : sprPixel s c with
  | none =>
    rw [compose]
    split
    · exact .inl rfl
    · next bg => exact .inr ⟨_, _, bg, .inl rfl⟩
  | some px =>
    rw [compose]
    split
    · exact .inr ⟨_, _, sprPixel_opaque sprite, .inr rfl⟩
    · next bg =>
      split
      · exact .inr ⟨_, _, bg, .inl rfl⟩
      · exact .inr ⟨_, _, sprPixel_opaque sprite, .inr rfl⟩

/-- Settles O51, layer by layer; a displayed entry other than entry 0 carries an opaque value in its low two bits. -/
theorem backdropEntriesNeverShown : Obligations.BackdropEntriesNeverShown := by
  intro s c
  refine ⟨bgPixel_toNat s c, sprPixel_numbers s c, palIndex_compose s c, colour_toNat s c, fun multiple => ?_⟩
  obtain backdrop | ⟨pal, pv, shown, layer⟩ := compose_cases s c
  · rw [backdrop]
    rfl
  · have pvLt := pv.isLt
    have pvNe := mt (toNat_eq_zero_iff pv).1 shown
    rcases layer with layer | layer
    · rw [layer, palIndex_background shown] at multiple
      omega
    · rw [layer, palIndex_sprite shown] at multiple
      omega

/-! ## The scroll address in its parts (R266 to R274) -/

theorem scroll_toNat {fy nt cy cx : Nat} (hfy : fy < 8) (hnt : nt < 4) (hcy : cy < 32) (hcx : cx < 32) :
    (scroll fy nt cy cx).toNat = 4096 * fy + 1024 * nt + 32 * cy + cx :=
  (BitVec.toNat_ofNat ..).trans (Nat.mod_eq_of_lt (by omega))

theorem incCoarseX_eq (v : BitVec 15) : incCoarseX v = nextColumn v := by
  have bound := v.isLt
  apply BitVec.eq_of_toNat_eq
  rw [incCoarseX_toNat]
  unfold nextColumn fineY nametable coarseY coarseX
  by_cases last : v.toNat % 32 = 31
  · rw [if_pos last, if_pos last, scroll_toNat (by omega) (by omega) (by omega) (by omega)]
    omega
  · rw [if_neg last, if_neg last, scroll_toNat (by omega) (by omega) (by omega) (by omega)]
    omega

theorem incY_eq (v : BitVec 15) : incY v = nextRow v := by
  have bound := v.isLt
  apply BitVec.eq_of_toNat_eq
  rw [incY_toNat]
  unfold nextRow fineY nametable coarseY coarseX
  by_cases inTile : v.toNat / 4096 < 7
  · rw [if_pos inTile, if_pos inTile, scroll_toNat (by omega) (by omega) (by omega) (by omega)]
    omega
  · rw [if_neg inTile, if_neg inTile]
    by_cases last : v.toNat / 32 % 32 = 29
    · rw [if_pos last, if_pos last, scroll_toNat (by omega) (by omega) (by omega) (by omega)]
      omega
    · rw [if_neg last, if_neg last, scroll_toNat (by omega) (by omega) (by omega) (by omega)]
      omega

theorem copyHoriz_eq (t v : BitVec 15) : copyHoriz t v =
    scroll (fineY v) (nametable v / 2 * 2 + nametable t % 2) (coarseY v) (coarseX t) := by
  have bound := v.isLt
  apply BitVec.eq_of_toNat_eq
  rw [copyHoriz_toNat]
  unfold fineY nametable coarseY coarseX
  rw [scroll_toNat (by omega) (by omega) (by omega) (by omega)]
  omega

theorem copyVert_eq (t v : BitVec 15) : copyVert t v =
    scroll (fineY t) (nametable t / 2 * 2 + nametable v % 2) (coarseY t) (coarseX v) := by
  have bound := t.isLt
  apply BitVec.eq_of_toNat_eq
  rw [copyVert_toNat]
  unfold fineY nametable coarseY coarseX
  rw [scroll_toNat (by omega) (by omega) (by omega) (by omega)]
  omega

/-! ## Sprite evaluation (R285, R286) -/

/-- The scan appends the candidates in range while there is room for them, and flags one for which there is none. -/
theorem evalSprites_eq (p : Ppu) (n : Nat) (cands found : List Nat) (ninth : Bool) (room : found.length ≤ 8) :
    evalSprites p n cands (found, ninth) =
      ((found ++ cands.filter (p.onLine n)).take 8,
        ninth || decide (8 < (found ++ cands.filter (p.onLine n)).length)) := by
  induction cands generalizing found ninth with
  | nil =>
    rw [evalSprites, List.filter_nil, List.append_nil, List.take_of_length_le room, decide_eq_false (by omega),
      Bool.or_false]
  | cons i is ih =>
    rw [evalSprites]
    by_cases on : p.onLine n i = true
    · rw [if_pos on, List.filter_cons_of_pos on]
      by_cases free : found.length < spritesPerLine
      · rw [if_pos free, ih _ _ (by simpa [spritesPerLine] using Nat.succ_le_of_lt free), List.append_assoc]
        rfl
      · have full : found.length = 8 := by unfold spritesPerLine at free; omega
        rw [if_neg free, ih _ _ room, List.take_append_of_le_length (by omega),
          List.take_append_of_le_length (by omega), List.length_append, List.length_append, List.length_cons,
          Bool.true_or, decide_eq_true (by omega), Bool.or_true]
    · rw [if_neg on, List.filter_cons_of_neg on, ih _ _ room]

/-- Evaluation in the words of the statements. -/
theorem evaluate_eq (p : Ppu) : evaluate p = { p with
    sprNext := (spritesOn p (p.scanline + 1)).take 8
    overflow := p.overflow || decide (8 < (spritesOn p (p.scanline + 1)).length) } := by
  unfold evaluate
  dsimp only
  rw [evalSprites_eq p _ _ [] _ (Nat.zero_le 8)]
  rfl

/-! ## The dot (R260, R264) -/

/-- The table R264: what one dot makes of the picture unit before the position moves, one constructor for each row. -/
inductive DotEvent (s : State) : Ppu → Prop where
  | copy (dot : s.ppu.dot = 0) : DotEvent s { s.ppu with sprCur := s.ppu.sprNext }
  | pixel (line : s.ppu.scanline < 240) (dot : 1 ≤ s.ppu.dot ∧ s.ppu.dot ≤ 256) :
      DotEvent s (if s.ppu.ren then advanceCoarseX (s.ppu.dot - 1) (drawPixel (s.ppu.dot - 1) s) else s.ppu)
  | evaluate (line : s.ppu.scanline < 240) (dot : s.ppu.dot = 257) :
      DotEvent s (if s.ppu.ren then evaluate { s.ppu with v := incY s.ppu.v } else { s.ppu with sprNext := [] })
  | reloadX (line : s.ppu.scanline < 240 ∨ s.ppu.scanline = 261) (dot : s.ppu.dot = 258) :
      DotEvent s (if s.ppu.ren then { s.ppu with v := copyHoriz s.ppu.t s.ppu.v } else s.ppu)
  | startVblank (line : s.ppu.scanline = 241) (dot : s.ppu.dot = 1) : DotEvent s { s.ppu with vblank := true }
  | clearFlags (line : s.ppu.scanline = 261) (dot : s.ppu.dot = 1) :
      DotEvent s { s.ppu with vblank := false, spr0hit := false, overflow := false }
  | empty (line : s.ppu.scanline = 261) (dot : s.ppu.dot = 257) : DotEvent s { s.ppu with sprNext := [] }
  | reloadY (line : s.ppu.scanline = 261) (dot : 280 ≤ s.ppu.dot ∧ s.ppu.dot ≤ 304) :
      DotEvent s (if s.ppu.ren then { s.ppu with v := copyVert s.ppu.t s.ppu.v } else s.ppu)
  | quiet (dot : s.ppu.dot ≠ 0) (visible : s.ppu.scanline < 240 → 258 < s.ppu.dot)
      (vblank : s.ppu.scanline = 241 → s.ppu.dot ≠ 1)
      (preRender : s.ppu.scanline = 261 →
        s.ppu.dot ≠ 1 ∧ s.ppu.dot ≠ 257 ∧ s.ppu.dot ≠ 258 ∧ ¬ (280 ≤ s.ppu.dot ∧ s.ppu.dot ≤ 304)) : DotEvent s s.ppu

theorem visibleDot_event {s : State} (start : s.ppu.dot ≠ 0) (line : s.ppu.scanline < 240) :
    DotEvent s (visibleDot s) := by
  unfold visibleDot
  dsimp only
  by_cases pixel : 1 ≤ s.ppu.dot ∧ s.ppu.dot ≤ 256
  · rw [if_pos pixel]
    exact .pixel line pixel
  by_cases evaluate : s.ppu.dot = 257
  · rw [if_neg pixel, if_pos evaluate]
    exact .evaluate line evaluate
  by_cases reload : s.ppu.dot = 258
  · rw [if_neg pixel, if_neg evaluate, if_pos reload]
    exact .reloadX (.inl line) reload
  · rw [if_neg pixel, if_neg evaluate, if_neg reload]
    exact .quiet start (by omega) (by omega) (by omega)

theorem preRenderDot_event {s : State} (start : s.ppu.dot ≠ 0) (line : s.ppu.scanline = 261) :
    DotEvent s (preRenderDot s.ppu) := by
  unfold preRenderDot
  by_cases clear : s.ppu.dot = 1
  · rw [if_pos clear]
    exact .clearFlags line clear
  by_cases empty : s.ppu.dot = 257
  · rw [if_neg clear, if_pos empty]
    exact .empty line empty
  by_cases reloadX : s.ppu.dot = 258
  · rw [if_neg clear, if_neg empty, if_pos reloadX]
    exact .reloadX (.inr line) reloadX
  by_cases reloadY : 280 ≤ s.ppu.dot ∧ s.ppu.dot ≤ 304
  · rw [if_neg clear, if_neg empty, if_neg reloadX, if_pos reloadY]
    exact .reloadY line reloadY
  · rw [if_neg clear, if_neg empty, if_neg reloadX, if_neg reloadY]
    exact .quiet start (by omega) (by omega) (by omega)

theorem dotEvents_event (s : State) : DotEvent s (dotEvents s) := by
  unfold dotEvents screenHeight
  dsimp only
  by_cases copy : s.ppu.dot = 0
  · rw [if_pos copy]
    exact .copy copy
  by_cases visible : s.ppu.scanline < 240
  · rw [if_neg copy, if_pos visible]
    exact visibleDot_event copy visible
  by_cases post : s.ppu.scanline = 241
  · rw [if_neg copy, if_neg visible, if_pos post]
    by_cases start : s.ppu.dot = 1
    · rw [if_pos start]
      exact .startVblank post start
    · rw [if_neg start]
      exact .quiet copy (by omega) (by omega) (by omega)
  by_cases preRender : s.ppu.scanline = 261
  · rw [if_neg copy, if_neg visible, if_neg post, if_pos preRender]
    exact preRenderDot_event copy preRender
  · rw [if_neg copy, if_neg visible, if_neg post, if_neg preRender]
    exact .quiet copy (by omega) (by omega) (by omega)

/-- The events of a dot with rendering disabled (R265). -/
theorem dotEvents_off {s : State} (off : s.ppu.ren = false) : dotEvents s = { s.ppu with
    vblank := if s.ppu.scanline = 241 ∧ s.ppu.dot = 1 then true
      else if s.ppu.scanline = 261 ∧ s.ppu.dot = 1 then false else s.ppu.vblank
    spr0hit := if s.ppu.scanline = 261 ∧ s.ppu.dot = 1 then false else s.ppu.spr0hit
    overflow := if s.ppu.scanline = 261 ∧ s.ppu.dot = 1 then false else s.ppu.overflow
    sprCur := if s.ppu.dot = 0 then s.ppu.sprNext else s.ppu.sprCur
    sprNext := if s.ppu.dot = 257 ∧ (s.ppu.scanline < 240 ∨ s.ppu.scanline = 261) then [] else s.ppu.sprNext } := by
  have disabled : ¬ s.ppu.ren = true := Bool.eq_false_iff.1 off
  have event := dotEvents_event s
  generalize dotEvents s = p at event
  cases event with
  | pixel | evaluate | reloadX | reloadY =>
    rw [if_neg disabled]
    simp (disch := omega) only [if_pos, if_neg]
  | copy | startVblank | clearFlags | empty | quiet => simp (disch := omega) only [if_pos, if_neg]

theorem drawPixel_eq (c : Nat) (s : State) : drawPixel c s = { s.ppu with
    spr0hit := s.ppu.spr0hit || hitAt s c
    fb := s.ppu.fb.write (256 * s.ppu.scanline + c) (BitVec.ofNat 6 (colourShown s c)) } := by
  rw [← sprite0Hits_eq, ← colour_toNat, BitVec.ofNat_toNat, BitVec.setWidth_eq]
  rfl

theorem advanceCoarseX_eq (c : Nat) (p : Ppu) : advanceCoarseX c p = { p with
    v := if (p.x.toNat + c) % 8 = 7 then nextColumn p.v else p.v } := by
  unfold advanceCoarseX
  rw [incCoarseX_eq]
  split <;> rfl

/-- Evaluation at dot 257 is not touched by the move of v to the next row. -/
theorem evaluate_nextRow (p : Ppu) : evaluate { p with v := incY p.v } = { evaluate p with v := nextRow p.v } := by
  rw [evaluate_eq, evaluate_eq, incY_eq]
  rfl

/-- The events of a dot with rendering enabled (R264). -/
theorem dotEvents_on {s : State} (on : s.ppu.ren = true) : dotEvents s = { s.ppu with
    v := scrollAfter s.ppu
    vblank := if s.ppu.scanline = 241 ∧ s.ppu.dot = 1 then true
      else if s.ppu.scanline = 261 ∧ s.ppu.dot = 1 then false else s.ppu.vblank
    spr0hit := if s.ppu.scanline = 261 ∧ s.ppu.dot = 1 then false
      else if s.ppu.scanline < 240 ∧ 1 ≤ s.ppu.dot ∧ s.ppu.dot ≤ 256 then s.ppu.spr0hit || hitAt s (s.ppu.dot - 1)
      else s.ppu.spr0hit
    overflow := if s.ppu.scanline = 261 ∧ s.ppu.dot = 1 then false
      else if s.ppu.scanline < 240 ∧ s.ppu.dot = 257 then (evaluate s.ppu).overflow else s.ppu.overflow
    sprCur := if s.ppu.dot = 0 then s.ppu.sprNext else s.ppu.sprCur
    sprNext := if s.ppu.scanline < 240 ∧ s.ppu.dot = 257 then (evaluate s.ppu).sprNext
      else if s.ppu.scanline = 261 ∧ s.ppu.dot = 257 then [] else s.ppu.sprNext
    fb := if s.ppu.scanline < 240 ∧ 1 ≤ s.ppu.dot ∧ s.ppu.dot ≤ 256 then
        s.ppu.fb.write (256 * s.ppu.scanline + (s.ppu.dot - 1)) (BitVec.ofNat 6 (colourShown s (s.ppu.dot - 1)))
      else s.ppu.fb } := by
  have event := dotEvents_event s
  generalize dotEvents s = p at event
  unfold scrollAfter
  cases event with
  | pixel line dot =>
    rw [if_pos on, advanceCoarseX_eq, drawPixel_eq]
    dsimp only
    by_cases last : (s.ppu.x.toNat + (s.ppu.dot - 1)) % 8 = 7
    · simp (disch := omega) only [if_pos, if_neg]
    · simp (disch := omega) only [if_pos, if_neg]
  | evaluate line dot =>
    rw [if_pos on, evaluate_nextRow, evaluate_eq]
    simp (disch := omega) only [if_pos, if_neg]
  | reloadX line dot =>
    rw [if_pos on, copyHoriz_eq]
    simp (disch := omega) only [if_pos, if_neg]
  | reloadY line dot =>
    rw [if_pos on, copyVert_eq]
    simp (disch := omega) only [if_pos, if_neg]
  | copy | startVblank | clearFlags | empty | quiet => simp (disch := omega) only [if_pos, if_neg]

/-- The position moves on one dot (R260). -/
theorem advanceDot_eq (p : Ppu) : advanceDot p = { p with
    dot := if p.dot + 1 = 341 then 0 else p.dot + 1
    scanline := if p.dot + 1 = 341 then (if p.scanline + 1 = 262 then 0 else p.scanline + 1) else p.scanline } := by
  unfold advanceDot dotsPerScanline scanlinesPerFrame
  split <;> rfl

/-- The NMI is latched at one dot of the frame (R276). -/
theorem raisesNmi_eq (p : Ppu) : raisesNmi p = (decide (p.scanline = 241 ∧ p.dot = 1) && p.ctrl.getLsbD 7) := by
  rw [Bool.decide_and]
  rfl

/-- A frame is counted at its last dot (R287). -/
theorem endsFrame_toNat (p : Ppu) :
    (endsFrame p).toNat = if p.dot + 1 = 341 ∧ p.scanline + 1 = 262 then 1 else 0 := by
  have last : endsFrame p = decide (p.dot + 1 = 341 ∧ p.scanline + 1 = 262) := by
    rw [Bool.decide_and]
    rfl
  rw [last]
  split
  · next h => rw [decide_eq_true h]; rfl
  · next h => rw [decide_eq_false h]; rfl

theorem ren_iff (p : Ppu) : p.ren = true ↔ p.mask.getLsbD 3 = true ∨ p.mask.getLsbD 4 = true := Bool.or_eq_true_iff

/-- Settles O49: with both layers off the events are those of `dotEvents_off`, and then the position moves. -/
theorem renderingDisabled : Obligations.RenderingDisabled := by
  intro s noBg noSpr
  have off : s.ppu.ren = false := Bool.or_eq_false_iff.2 ⟨noBg, noSpr⟩
  refine ⟨?_, congrArg (s.framesReady + ·) (endsFrame_toNat s.ppu)⟩
  rw [ppuTick_ppu, advanceDot_eq, dotEvents_off off]

/-- Settles O52: evaluation scans all 64 sprites; the dot is its events, then the move of the position. -/
theorem spriteEvaluation : Obligations.SpriteEvaluation := by
  refine ⟨evaluate_eq, fun s rendering => ?_⟩
  rw [ppuTick, advanceDot_eq, dotEvents_on ((ren_iff s.ppu).2 rendering), raisesNmi_eq, endsFrame_toNat]

/-- A dot that draws nothing keeps the framebuffer. -/
theorem ppuTick_fb_kept {s : State} (h : ¬ (s.ppu.scanline < 240 ∧ 1 ≤ s.ppu.dot ∧ s.ppu.dot ≤ 256 ∧
    (s.ppu.mask.getLsbD 3 = true ∨ s.ppu.mask.getLsbD 4 = true))) : (ppuTick s).ppu.fb = s.ppu.fb := by
  by_cases rendering : s.ppu.mask.getLsbD 3 = true ∨ s.ppu.mask.getLsbD 4 = true
  · have undrawn : ¬ (s.ppu.scanline < 240 ∧ 1 ≤ s.ppu.dot ∧ s.ppu.dot ≤ 256) :=
      fun ⟨line, first, last⟩ => h ⟨line, first, last, rendering⟩
    rw [spriteEvaluation.2 s rendering]
    exact if_neg undrawn
  · have off : s.ppu.ren = false := Bool.eq_false_iff.2 (mt (ren_iff s.ppu).1 rendering)
    rw [ppuTick_ppu, advanceDot_eq, dotEvents_off off]

/-- Settles O50: the pixel's cell is written, and different pixels have different cells. -/
theorem pixelWrite : Obligations.PixelWrite := by
  intro s p ren drawn c
  have written (draw : drawn) : (ppuTick s).ppu.fb =
      p.fb.write (256 * p.scanline + c) (BitVec.ofNat 6 (colourShown s c)) := by
    obtain ⟨line, first, last, rendering⟩ := draw
    rw [spriteEvaluation.2 s rendering]
    exact if_pos ⟨line, first, last⟩
  have shown : BitVec.ofNat 6 (colourShown s c) = colour s (compose (bgPixel s c) (sprPixel s c)) := by
    rw [← colour_toNat, BitVec.ofNat_toNat, BitVec.setWidth_eq]
  refine ⟨fun wf => ⟨fun draw => ?_, fun y x inLine other => ?_⟩, ppuTick_fb_kept, fun draw => ?_, fun rendering => ?_⟩
  · rw [written draw, Memory.read_write_same wf, shown]
    exact ⟨rfl, colour_toNat s c⟩
  · by_cases draw : drawn
    · have otherCell : 256 * y + x ≠ 256 * p.scanline + c := by
        have column : c < 256 := Nat.sub_one_lt_of_le draw.2.1 draw.2.2.1
        intro same
        exact other ⟨draw, by omega, by omega⟩
      rw [written draw, Memory.read_write_ne wf _ otherCell]
    · rw [ppuTick_fb_kept draw]
  · obtain ⟨line, first, last, rendering⟩ := draw
    have unclear : ¬ (p.scanline = 261 ∧ p.dot = 1) := fun clear => absurd line (by rw [clear.1]; decide)
    rw [spriteEvaluation.2 s rendering]
    exact (if_neg unclear).trans (if_pos ⟨line, first, last⟩)
  · rw [spriteEvaluation.2 s rendering]

/-! ## The video interrupt (R275, R276) -/

/-- No event moves the position or writes PPUCTRL. -/
theorem dotEvents_kept (s : State) : (dotEvents s).scanline = s.ppu.scanline ∧ (dotEvents s).dot = s.ppu.dot ∧
    (dotEvents s).ctrl = s.ppu.ctrl := by
  cases rendering : s.ppu.ren with
  | false => rw [dotEvents_off rendering]; exact ⟨rfl, rfl, rfl⟩
  | true => rw [dotEvents_on rendering]; exact ⟨rfl, rfl, rfl⟩

theorem ppuTick_ctrl (s : State) : (ppuTick s).ppu.ctrl = s.ppu.ctrl := by
  obtain ⟨-, -, ctrl⟩ := dotEvents_kept s
  rw [ppuTick_ppu, advanceDot_eq]
  exact ctrl

/-- The frame has 89342 dots (R260). -/
theorem ppuTick_dotIndex {s : State} (h : PpuOk s.ppu) :
    dotIndex (ppuTick s).ppu = (dotIndex s.ppu + 1) % 89342 := by
  obtain ⟨line, dot, -⟩ := dotEvents_kept s
  have lineLt := h.scanline
  have dotLt := h.dot
  rw [ppuTick_ppu, advanceDot_eq]
  unfold dotIndex
  dsimp only
  rw [line, dot]
  split
  · split <;> omega
  · omega

/-- The dot that latches the NMI is dot 82182 of the frame. -/
theorem raisesNmi_iff (p : Ppu) : raisesNmi p = true ↔ (p.scanline = 241 ∧ p.dot = 1) ∧ p.ctrl.getLsbD 7 = true := by
  rw [raisesNmi_eq, Bool.and_eq_true, decide_eq_true_eq]

/-- The latch after the three dots of a cycle: it was set, or one of them was that dot. -/
theorem threeDots_pendNMI (s : State) : (threeDots s).cpu.pendNMI = (s.cpu.pendNMI || raisesNmi s.ppu ||
    raisesNmi (ppuTick s).ppu || raisesNmi (ppuTick (ppuTick s)).ppu) := rfl

/-- No CPU tick sets the NMI latch (R276): what it leaves set, the dots left set. -/
theorem step_pendNMI {s t : State} (next : step s = .next t) (set : t.cpu.pendNMI = true) :
    (threeDots s).cpu.pendNMI = true := by
  rcases step_cases s with ⟨-, idle⟩ | ⟨-, latched, -⟩ | ⟨-, -, -, -, irq⟩ | ⟨-, -, -, run⟩
  · obtain rfl := Host.Outcome.next.inj (idle.symm.trans next)
    rwa [closeCycle_cpu] at set
  · exact latched
  · obtain rfl := Host.Outcome.next.inj (irq.symm.trans next)
    rw [closeCycle_cpu, serviceIrq, interrupt_finish_cpu] at set
    exact set
  · rw [run] at next
    cases ran : exec (fetchInstr (beginTick (threeDots s))).1 (fetchInstr (beginTick (threeDots s))).2 with
    | next u =>
      rw [ran] at next
      obtain rfl := Host.Outcome.next.inj next
      rw [closeCycle_cpu, (exec_latches ran).1, fetchInstr_cpu] at set
      exact set
    | fault r => cases r
    | refused r => rw [ran] at next; cases next

/-- Settles O48: only a dot sets the latch, and the three dots of a step follow one another in the frame. -/
theorem videoInterruptDot : Obligations.VideoInterruptDot := by
  refine ⟨fun s => by rw [ppuTick_cpu, raisesNmi_eq], fun s => ?_, fun s t inv clear next set => ?_⟩
  · by_cases rendering : s.ppu.mask.getLsbD 3 = true ∨ s.ppu.mask.getLsbD 4 = true
    · rw [spriteEvaluation.2 s rendering]
      exact ⟨rfl, fun cleared => ⟨if_pos cleared, if_pos cleared⟩⟩
    · obtain ⟨noBg, noSpr⟩ := not_or.1 rendering
      obtain ⟨tick, -⟩ := renderingDisabled s (Bool.eq_false_iff.2 noBg) (Bool.eq_false_iff.2 noSpr)
      rw [tick]
      exact ⟨rfl, fun cleared => ⟨if_pos cleared, if_pos cleared⟩⟩
  · have ok0 : PpuOk s.ppu := inv.busOk.ppu
    have ok1 : PpuOk (ppuTick s).ppu := inv.busOk.ppuTick.ppu
    have dot1 := ppuTick_dotIndex ok0
    have dot2 := ppuTick_dotIndex ok1
    have raised := step_pendNMI next set
    rw [threeDots_pendNMI, clear] at raised
    simp only [Bool.false_or, Bool.or_eq_true, raisesNmi_iff, ppuTick_ctrl] at raised
    unfold dotIndex at dot1 dot2 ⊢
    obtain (⟨⟨line, dot⟩, enabled⟩ | ⟨⟨line, dot⟩, enabled⟩) | ⟨⟨line, dot⟩, enabled⟩ := raised
    · exact ⟨0, by decide, by omega, enabled⟩
    · exact ⟨1, by decide, by omega, enabled⟩
    · exact ⟨2, by decide, by omega, enabled⟩

end Sys2Proof.Machine

/-! # The audio unit (46_apu.md) -/

namespace Sys2Proof.Machine

open Sys2Proof.Claims

/-! ## Bits, fields and counters in numbers -/

/-- A bit of a register byte, as the statements write it. -/
theorem bit_eq_beq (d : Byte) (k : Nat) : d.getLsbD k = (d.toNat / 2 ^ k % 2 == 1) := getLsbD_eq_decide d k

theorem topBit_eq_beq (d : Byte) : d.getLsbD 7 = (d.toNat / 128 == 1) := by
  have small : d.toNat / 128 < 2 := Nat.div_lt_of_lt_mul d.isLt
  exact (bit_eq_beq d 7).trans (congrArg (· == 1) (Nat.mod_eq_of_lt small))

theorem field_eq_ofNat {n : Nat} (v : BitVec n) (lo len : Nat) : field v lo len = BitVec.ofNat len (v.toNat / 2 ^ lo) :=
  BitVec.eq_of_toNat_eq ((field_toNat v lo len).trans (BitVec.toNat_ofNat ..).symm)

theorem field_eq_ofNat_mod {n : Nat} (v : BitVec n) (lo len : Nat) :
    field v lo len = BitVec.ofNat len (v.toNat / 2 ^ lo % 2 ^ len) := by
  rw [← field_toNat, BitVec.ofNat_toNat, BitVec.setWidth_eq]

theorem lowField_eq_ofNat_mod {n : Nat} (v : BitVec n) (len : Nat) :
    field v 0 len = BitVec.ofNat len (v.toNat % 2 ^ len) := by
  rw [field_eq_ofNat_mod, Nat.pow_zero, Nat.div_one]

theorem sub_one_eq_ofNat {n : Nat} {v : BitVec n} (h : v ≠ 0) : v - 1 = BitVec.ofNat n (v.toNat - 1) := by
  have pos : 1 ≤ v.toNat := Nat.pos_of_ne_zero (mt (toNat_eq_zero_iff v).1 h)
  rw [← BitVec.ofNat_sub_ofNat_of_le _ _ (Nat.lt_of_le_of_lt pos v.isLt) pos, BitVec.ofNat_toNat, BitVec.setWidth_eq]
  rfl

/-! ## Frequencies, lengths and the noise period (R319, R328, R329) -/

theorem setPulsePeriod_eq (p : Params) (x : BitVec 11) (ch : Pulse) :
    setPulsePeriod p x ch = withPeriod p.cpuHz x.toNat ch := by
  have fallback : x = 0 ↔ x.toNat = 0 := (toNat_eq_zero_iff x).symm
  unfold setPulsePeriod withPeriod pulseFreq pulseHz
  rw [BitVec.ofNat_toNat, BitVec.setWidth_eq]
  simp only [fallback]
  rfl

theorem setTriPeriod_eq (p : Params) (x : BitVec 11) (ch : Tri) :
    setTriPeriod p x ch = { ch with period := BitVec.ofNat 11 x.toNat, freq := triHz p.cpuHz x.toNat } := by
  rw [BitVec.ofNat_toNat, BitVec.setWidth_eq]
  rfl

/-- The low byte of a period is written by register 2 of a channel, the bits above it by register 3 (R308, R309). -/
theorem putPeriodLow_toNat (period : BitVec 11) (d : Byte) :
    (putField period 0 8 d).toNat = period.toNat / 256 * 256 + d.toNat :=
  (putLow_toNat period 8 d (by decide)).trans (congrArg (· + d.toNat) (Nat.mul_comm ..))

theorem putPeriodHigh_toNat (period : BitVec 11) (d : Byte) :
    (putField period 8 3 (field d 0 3)).toNat = d.toNat % 8 * 256 + period.toNat % 256 := by
  have three : (field d 0 3).toNat = d.toNat / 1 % 8 := field_toNat d 0 3
  have := period.isLt
  rw [putField_toNat _ _ _ _ (by decide), three]
  omega

theorem lengthOf_eq (d : Byte) : lengthOf (field d 3 5) = lengthLoaded d := by
  have index : (field d 3 5).toNat = d.toNat / 8 :=
    (field_toNat d 3 5).trans (Nat.mod_eq_of_lt (Nat.div_lt_of_lt_mul d.isLt))
  have table : lengthTable = lengthValues.map (BitVec.ofNat 8) := rfl
  rw [lengthOf, index, table, List.getD_eq_getElem?_getD, List.getElem?_map, lengthLoaded, List.getD_eq_getElem?_getD]
  exact Option.getD_map ..

theorem noisePeriodOf_eq (i : BitVec 4) : noisePeriodOf i = noisePeriods.getD i.toNat 0 := by
  have inside : i.toNat < noisePeriodTable.length := i.isLt
  have table : noisePeriods = noisePeriodTable := rfl
  rw [noisePeriodOf, table, List.getD_eq_getElem?_getD, List.getD_eq_getElem?_getD, List.getElem?_eq_getElem inside,
    Option.getD_some, Option.getD_some]

/-! ## The register writes (R302 to R321) -/

theorem pulseWrite0_eq (hz : Nat) (d : Byte) (ch : Pulse) : pulseWrite0 d ch = pulseWritten hz 0 d ch := by
  rw [pulseWrite0, field_eq_ofNat d 6 2, bit_eq_beq d 5, bit_eq_beq d 4, lowField_eq_ofNat_mod d 4]
  rfl

theorem pulseWrite1_eq (hz : Nat) (d : Byte) (ch : Pulse) : pulseWrite1 d ch = pulseWritten hz 1 d ch := by
  rw [pulseWrite1, topBit_eq_beq, field_eq_ofNat_mod d 4 3, bit_eq_beq d 3, lowField_eq_ofNat_mod d 3]
  rfl

theorem pulseWrite2_eq (p : Params) (d : Byte) (ch : Pulse) : pulseWrite2 p d ch = pulseWritten p.cpuHz 2 d ch := by
  rw [pulseWrite2, setPulsePeriod_eq, putPeriodLow_toNat]
  rfl

theorem pulseWrite3_eq (p : Params) (d : Byte) (ch : Pulse) : pulseWrite3 p d ch = pulseWritten p.cpuHz 3 d ch := by
  rw [pulseWrite3, setPulsePeriod_eq, putPeriodHigh_toNat, lengthOf_eq]
  rfl

/-- The write of register `r` of a pulse channel, 0 to 3, under one name. -/
def pulseWrite (p : Params) (r : Nat) (d : Byte) (ch : Pulse) : Pulse :=
  match r with
  | 0 => pulseWrite0 d ch
  | 1 => pulseWrite1 d ch
  | 2 => pulseWrite2 p d ch
  | _ => pulseWrite3 p d ch

theorem pulseWrite_eq (p : Params) (r : Nat) (d : Byte) (ch : Pulse) :
    pulseWrite p r d ch = pulseWritten p.cpuHz r d ch := by
  match r with
  | 0 => exact pulseWrite0_eq p.cpuHz d ch
  | 1 => exact pulseWrite1_eq p.cpuHz d ch
  | 2 => exact pulseWrite2_eq p d ch
  | _ + 3 => exact pulseWrite3_eq p d ch

theorem triWrite0_eq (d : Byte) (ch : Tri) : triWrite0 d ch = { ch with
    control := d.toNat / 128 == 1, linReload := BitVec.ofNat 7 (d.toNat % 128) } := by
  have reload : field d 0 7 = BitVec.ofNat 7 (d.toNat % 128) := lowField_eq_ofNat_mod d 7
  rw [triWrite0, topBit_eq_beq, reload]

theorem triWrite2_eq (p : Params) (d : Byte) (ch : Tri) : triWrite2 p d ch =
    let period := ch.period.toNat / 256 * 256 + d.toNat
    { ch with period := BitVec.ofNat 11 period, freq := triHz p.cpuHz period } := by
  rw [triWrite2, setTriPeriod_eq, putPeriodLow_toNat]

theorem triWrite3_eq (p : Params) (d : Byte) (ch : Tri) : triWrite3 p d ch =
    let period := d.toNat % 8 * 256 + ch.period.toNat % 256
    { ch with
      period := BitVec.ofNat 11 period, freq := triHz p.cpuHz period, enabled := true, length := lengthLoaded d
      linFlag := true } := by
  rw [triWrite3, setTriPeriod_eq, putPeriodHigh_toNat, lengthOf_eq]

theorem noiseWrite0_eq (d : Byte) (ch : Noise) : noiseWrite0 d ch = { ch with
    halt := d.toNat / 32 % 2 == 1, constVol := d.toNat / 16 % 2 == 1, volume := BitVec.ofNat 4 (d.toNat % 16) } := by
  have halt : d.getLsbD 5 = (d.toNat / 32 % 2 == 1) := bit_eq_beq d 5
  have constVol : d.getLsbD 4 = (d.toNat / 16 % 2 == 1) := bit_eq_beq d 4
  have volume : field d 0 4 = BitVec.ofNat 4 (d.toNat % 16) := lowField_eq_ofNat_mod d 4
  rw [noiseWrite0, halt, constVol, volume]

theorem noiseWrite2_eq (p : Params) (d : Byte) (ch : Noise) : noiseWrite2 p d ch = { ch with
    mode := d.toNat / 128 == 1, periodIdx := BitVec.ofNat 4 (d.toNat % 16)
    freq := (p.cpuHz : Rat) / ((noisePeriods.getD (d.toNat % 16) 0 : Nat) : Rat) } := by
  have index : field d 0 4 = BitVec.ofNat 4 (d.toNat % 16) := lowField_eq_ofNat_mod d 4
  rw [noiseWrite2, noiseFreq, noisePeriodOf_eq, topBit_eq_beq, index, BitVec.toNat_ofNat, Nat.mod_mod]

theorem noiseWrite3_eq (d : Byte) (ch : Noise) :
    noiseWrite3 d ch = { ch with enabled := true, length := lengthLoaded d } := by
  rw [noiseWrite3, lengthOf_eq]

theorem writeEnables_eq (d : Byte) (u : Apu) :
    let on := fun k : Nat => d.toNat / 2 ^ k % 2 == 1
    let kept := fun (k : Nat) (len : Byte) => if on k then len else 0
    writeEnables d u = { u with
      pulse0 := { u.pulse0 with enabled := on 0, length := kept 0 u.pulse0.length }
      pulse1 := { u.pulse1 with enabled := on 1, length := kept 1 u.pulse1.length }
      tri := { u.tri with enabled := on 2, length := kept 2 u.tri.length }
      noise := { u.noise with enabled := on 3, length := kept 3 u.noise.length }
      dmc := { u.dmc with enabled := on 4 } } := by
  simp only [writeEnables, bit_eq_beq]
  rfl

/-! ## The clocks of the frame sequencer (R325 to R327) -/

theorem quarterClock_eq (u : Apu) : quarterClock u = quarterOf u := by
  have linear : (if u.tri.linFlag then u.tri.linReload else if u.tri.linear = 0 then 0 else u.tri.linear - 1) =
      BitVec.ofNat 7 (if u.tri.linFlag then u.tri.linReload.toNat else u.tri.linear.toNat - 1) := by
    split
    · rw [BitVec.ofNat_toNat, BitVec.setWidth_eq]
    · split
      · next zero => rw [zero]; rfl
      · next running => exact sub_one_eq_ofNat running
  have flag : (u.tri.linFlag && u.tri.control) = if u.tri.control then u.tri.linFlag else false := by
    cases u.tri.control <;> simp
  unfold quarterClock quarterOf
  rw [linear, flag]

theorem lengthClock_eq (halt : Bool) (n : Byte) : lengthClock halt n = countDown halt n := by
  unfold lengthClock countDown
  cases halt with
  | true => rfl
  | false =>
    by_cases zero : n = 0
    · rw [zero]; rfl
    · rw [if_neg (by simpa using zero), if_neg Bool.false_ne_true]
      exact sub_one_eq_ofNat zero

theorem sweepTarget_eq (one : Int) (ch : Pulse) : sweepTarget one ch =
    if ch.swNegate then (ch.period.toNat : Int) - (ch.period.toNat / 2 ^ ch.swShift.toNat : Nat) - one
    else (ch.period.toNat : Int) + (ch.period.toNat / 2 ^ ch.swShift.toNat : Nat) := by
  rw [sweepTarget, BitVec.toNat_ushiftRight, Nat.shiftRight_eq_div_pow]

theorem sweepActs_iff (one : Int) (ch : Pulse) : sweepActs one ch = true ↔
    ch.swDiv = 0 ∧ ch.swEnable = true ∧ 0 < ch.swShift.toNat ∧ 8 ≤ ch.period.toNat ∧
      0 ≤ sweepTarget one ch ∧ sweepTarget one ch ≤ 2047 := by
  have shift : 0 < ch.swShift.toNat ↔ ¬ ch.swShift = 0 := by
    rw [Nat.pos_iff_ne_zero, Ne, toNat_eq_zero_iff]
  simp only [sweepActs, Bool.and_eq_true, beq_iff_eq, Bool.not_eq_true', beq_eq_false_iff_ne, Ne, decide_eq_true_eq, shift,
    and_assoc]

theorem sweepClock_eq (p : Params) (one : Int) (ch : Pulse) : sweepClock p one ch = sweptPulse p.cpuHz one ch := by
  have moved : (if sweepActs one ch then setPulsePeriod p (BitVec.ofInt 11 (sweepTarget one ch)) ch else ch) =
      if ch.swDiv = 0 ∧ ch.swEnable = true ∧ 0 < ch.swShift.toNat ∧ 8 ≤ ch.period.toNat ∧
        0 ≤ sweepTarget one ch ∧ sweepTarget one ch ≤ 2047
      then withPeriod p.cpuHz (sweepTarget one ch).toNat ch else ch := by
    by_cases acts : sweepActs one ch = true
    · obtain ⟨-, -, -, -, low, high⟩ := (sweepActs_iff one ch).1 acts
      have number : (BitVec.ofInt 11 (sweepTarget one ch)).toNat = (sweepTarget one ch).toNat := by
        rw [BitVec.toNat_ofInt]; omega
      rw [if_pos acts, if_pos ((sweepActs_iff one ch).1 acts), setPulsePeriod_eq, number]
    · rw [if_neg acts, if_neg (mt (sweepActs_iff one ch).2 acts)]
  unfold sweepClock sweptPulse
  dsimp only
  rw [moved, ← sweepTarget_eq]
  by_cases reload : ch.swDiv = 0 ∨ ch.swReload = true
  · rw [if_pos reload, if_pos (by simpa using reload)]
  · rw [if_neg reload, if_neg (by simpa using reload), sub_one_eq_ofNat (not_or.1 reload).1]

theorem halfClock_eq (p : Params) (u : Apu) : halfClock p u = halfOf p.cpuHz u := by
  unfold halfClock clockLengths halfOf
  simp only [sweepClock_eq, lengthClock_eq]

theorem writeSequencer_eq (p : Params) (d : Byte) (u : Apu) : writeSequencer p d u =
    let w := { u with
      seqMode := d.toNat / 128 == 1, irqInhibit := d.toNat / 64 % 2 == 1, seqCount := 0, seqStep := 0 }
    if 128 ≤ d.toNat then halfOf p.cpuHz (quarterOf w) else w := by
  have inhibit : d.getLsbD 6 = (d.toNat / 64 % 2 == 1) := bit_eq_beq d 6
  have top : (d.toNat / 128 == 1) = true ↔ 128 ≤ d.toNat := by
    rw [beq_iff_eq]
    have := d.isLt
    omega
  unfold writeSequencer
  dsimp only
  rw [quarterClock_eq, halfClock_eq, topBit_eq_beq, inhibit]
  by_cases five : 128 ≤ d.toNat
  · rw [if_pos five, if_pos (top.2 five)]
  · rw [if_neg five, if_neg (mt top.1 five)]

/-! ## The frame sequencer (R323, R324) -/

theorem apuTick_between {p : Params} {u : Apu} (h : u.seqCount + 1 ≠ p.qfPeriod) :
    apuTick p u = { u with seqCount := u.seqCount + 1 } := if_neg h

theorem apuTick_steps {p : Params} {u : Apu} (h : u.seqCount + 1 = p.qfPeriod) :
    apuTick p u = { sequencerStep p u.seqMode u.seqStep { u with seqCount := 0 } with
      seqStep := (u.seqStep + 1) % (if u.seqMode then 5 else 4) } := if_pos h

theorem apuTicks_between {p : Params} (n : Nat) {u : Apu} (h : u.seqCount + n < p.qfPeriod) :
    apuTicks p n u = { u with seqCount := u.seqCount + n } := by
  induction n generalizing u with
  | zero => rfl
  | succ n ih =>
    rw [apuTicks, apuTick_between (by omega), ih (by dsimp only; omega)]
    dsimp only
    rw [Nat.add_right_comm, Nat.add_assoc]

theorem apuTicks_succ (p : Params) (n : Nat) (u : Apu) : apuTicks p (n + 1) u = apuTick p (apuTicks p n u) := by
  induction n generalizing u with
  | zero => rfl
  | succ n ih => exact ih (apuTick p u)

/-- Settles O53: the ticks before the last only count; the last one runs the step. -/
theorem sequencerPeriod : Obligations.SequencerPeriod := by
  intro p u n
  refine ⟨apuTicks_between n, fun last => ?_, ?_⟩
  · rw [apuTicks_succ, apuTicks_between n (by omega), apuTick_steps last]
  · rw [← quarterClock_eq]
    dsimp only
    rw [← halfClock_eq]
    exact ⟨rfl, rfl⟩

/-! ## The status byte (R318, R322) -/

/-- The status byte of four channels (R322). -/
def statusOf (noise tri pulse1 pulse0 : Bool) : Byte :=
  0#4 ++ BitVec.ofBool noise ++ BitVec.ofBool tri ++ BitVec.ofBool pulse1 ++ BitVec.ofBool pulse0

theorem apuStatus_eq (u : Apu) : apuStatus u =
    statusOf (u.noise.length != 0) (u.tri.length != 0) (u.pulse1.length != 0) (u.pulse0.length != 0) := rfl

theorem statusOf_toNat (noise tri pulse1 pulse0 : Bool) :
    (statusOf noise tri pulse1 pulse0).toNat = 8 * noise.toNat + 4 * tri.toNat + 2 * pulse1.toNat + pulse0.toNat := by
  revert noise tri pulse1 pulse0
  decide

theorem statusOf_getLsbD : ∀ (noise tri pulse1 pulse0 : Bool) (i : Nat), i < 8 →
    (statusOf noise tri pulse1 pulse0).getLsbD i = [pulse0, pulse1, tri, noise].getD i false := by decide

theorem bne_zero_eq_decide (n : Byte) : (n != 0) = decide (n ≠ 0) := by
  rw [Bool.eq_iff_iff, bne_iff_ne, decide_eq_true_eq]

theorem apuStatus_toNat (u : Apu) : (apuStatus u).toNat =
    8 * (decide (u.noise.length ≠ 0)).toNat + 4 * (decide (u.tri.length ≠ 0)).toNat +
      2 * (decide (u.pulse1.length ≠ 0)).toNat + (decide (u.pulse0.length ≠ 0)).toNat := by
  rw [apuStatus_eq, statusOf_toNat, bne_zero_eq_decide, bne_zero_eq_decide, bne_zero_eq_decide, bne_zero_eq_decide]

/-- A channel that is switched off has length 0 (R318). -/
theorem enableLength_bne_zero (on : Bool) (n : Byte) : (enableLength on n != 0) = ((n != 0) && on) := by
  cases on with
  | false => exact (Bool.and_false _).symm
  | true => exact (Bool.and_true _).symm

theorem statusOf_and (noise tri pulse1 pulse0 : Bool) (d : Byte) :
    statusOf (noise && d.getLsbD 3) (tri && d.getLsbD 2) (pulse1 && d.getLsbD 1) (pulse0 && d.getLsbD 0) =
      statusOf noise tri pulse1 pulse0 &&& d &&& 0x0F := by
  apply BitVec.eq_of_getLsbD_eq
  intro i lt
  rw [BitVec.getLsbD_and, BitVec.getLsbD_and, statusOf_getLsbD _ _ _ _ i lt, statusOf_getLsbD _ _ _ _ i lt]
  by_cases low : i < 4
  · obtain rfl | rfl | rfl | rfl : i = 0 ∨ i = 1 ∨ i = 2 ∨ i = 3 := by omega
    all_goals exact (Bool.and_true _).symm
  · obtain rfl | rfl | rfl | rfl : i = 4 ∨ i = 5 ∨ i = 6 ∨ i = 7 := by omega
    all_goals rfl

theorem apuStatus_writeEnables (d : Byte) (u : Apu) : apuStatus (writeEnables d u) = apuStatus u &&& d &&& 0x0F := by
  rw [apuStatus_eq, apuStatus_eq, ← statusOf_and, writeEnables, enableLength_bne_zero, enableLength_bne_zero,
    enableLength_bne_zero, enableLength_bne_zero]

/-- Settles O54: each address is that of one register, whose write is the one above in numbers. -/
theorem lengthStatus : Obligations.LengthStatus := by
  intro d s u n hz put
  refine ⟨fun r lt => ?_, ?_, rfl, ?_, ?_, ?_, rfl, ?_, ?_, ?_, ?_, ⟨apuStatus_toNat u, rfl⟩, ?_⟩
  · rw [← pulseWrite_eq s.cfg.params, ← pulseWrite_eq s.cfg.params]
    obtain rfl | rfl | rfl | rfl : r = 0 ∨ r = 1 ∨ r = 2 ∨ r = 3 := by omega
    all_goals exact ⟨rfl, rfl, rfl⟩
  · exact congrArg (fun ch => put { u with tri := ch }) (triWrite0_eq d u.tri)
  · exact congrArg (fun ch => put { u with tri := ch }) (triWrite2_eq s.cfg.params d u.tri)
  · exact congrArg (fun ch => put { u with tri := ch }) (triWrite3_eq s.cfg.params d u.tri)
  · exact congrArg (fun ch => put { u with noise := ch }) (noiseWrite0_eq d u.noise)
  · exact congrArg (fun ch => put { u with noise := ch }) (noiseWrite2_eq s.cfg.params d u.noise)
  · exact congrArg (fun ch => put { u with noise := ch }) (noiseWrite3_eq d u.noise)
  · exact congrArg put (writeEnables_eq d u)
  · exact congrArg put (writeSequencer_eq s.cfg.params d u)
  · exact apuStatus_writeEnables d u

/-! ## The channels (R331 to R333) -/

theorem signed_gain (c : Prop) [Decidable c] (volume : BitVec 4) :
    (if c then 1 else -1 : Rat) * gain volume =
      if c then (volume.toNat : Rat) / 15 else -((volume.toNat : Rat) / 15) := by
  split
  · exact Rat.one_mul _
  · exact (Rat.neg_mul 1 _).trans (congrArg (- ·) (Rat.one_mul _))

theorem frac_eq_phaseAfter (hz phase : Rat) : frac (phase + hz / (sampleRate : Rat)) = phaseAfter hz phase := rfl

theorem dutyRatio_eq (d : BitVec 2) : dutyRatio d =
    if d.toNat = 0 then 1 / 8 else if d.toNat = 1 then 1 / 4 else if d.toNat = 2 then 1 / 2 else 3 / 4 := by
  have := d.isLt
  unfold dutyRatio
  generalize d.toNat = k at *
  obtain rfl | rfl | rfl | rfl : k = 0 ∨ k = 1 ∨ k = 2 ∨ k = 3 := by omega
  all_goals rfl

theorem Pulse.silent_iff (ch : Pulse) : ch.silent = true ↔
    ch.enabled = false ∨ ch.freq = 0 ∨ ch.volume.toNat = 0 ∨ ch.length.toNat = 0 := by
  simp only [Pulse.silent, Bool.or_eq_true, Bool.not_eq_true', beq_iff_eq, toNat_eq_zero_iff, or_assoc]

theorem Tri.silent_iff (ch : Tri) : ch.silent = true ↔
    ch.enabled = false ∨ ch.freq = 0 ∨ ch.length.toNat = 0 ∨ ch.linear.toNat = 0 := by
  simp only [Tri.silent, Bool.or_eq_true, Bool.not_eq_true', beq_iff_eq, toNat_eq_zero_iff, or_assoc]

theorem Noise.silent_iff (ch : Noise) : ch.silent = true ↔
    ch.enabled = false ∨ ch.freq = 0 ∨ ch.volume.toNat = 0 ∨ ch.length.toNat = 0 := by
  simp only [Noise.silent, Bool.or_eq_true, Bool.not_eq_true', beq_iff_eq, toNat_eq_zero_iff, or_assoc]

theorem pulseSample_eq (ch : Pulse) : pulseSample ch = pulseOut ch := by
  unfold pulseSample pulseOut
  by_cases silent : ch.silent = true
  · rw [if_pos silent, if_pos ((Pulse.silent_iff ch).1 silent)]
  · rw [if_neg silent, if_neg (mt (Pulse.silent_iff ch).2 silent), signed_gain, dutyRatio_eq, frac_eq_phaseAfter]

theorem triSample_eq (ch : Tri) : triSample ch = triangleOut ch := by
  unfold triSample triangleOut
  by_cases silent : ch.silent = true
  · rw [if_pos silent, if_pos ((Tri.silent_iff ch).1 silent)]
  · rw [if_neg silent, if_neg (mt (Tri.silent_iff ch).2 silent), frac_eq_phaseAfter]

theorem xor_odd_toNat (x y : Nat) : (decide (x % 2 = 1) ^^ decide (y % 2 = 1)).toNat = (x + y) % 2 := by
  rcases Nat.mod_two_eq_zero_or_one x with hx | hx <;> rcases Nat.mod_two_eq_zero_or_one y with hy | hy <;>
    simp [Nat.add_mod, hx, hy]

theorem lfsrClock_toNat (mode : Bool) (r : BitVec 15) : (lfsrClock mode r).toNat = noiseShift mode r.toNat := by
  have moved : (r >>> 1).toNat = r.toNat / 2 := by rw [BitVec.toNat_ushiftRight, Nat.shiftRight_eq_div_pow]
  have entering (b : Bool) : ((BitVec.ofBool b).setWidth 15 <<< 14).toNat = 16384 * b.toNat := by cases b <;> rfl
  have := r.isLt
  unfold lfsrClock noiseShift
  dsimp only
  rw [BitVec.or_comm, or_toNat 14 (by rw [entering]; omega) (by rw [moved]; omega), entering, moved]
  cases mode with
  | false =>
    rw [if_neg Bool.false_ne_true, if_neg Bool.false_ne_true, getLsbD_eq_decide, getLsbD_eq_decide, xor_odd_toNat]
    omega
  | true =>
    rw [if_pos rfl, if_pos rfl, getLsbD_eq_decide, getLsbD_eq_decide, xor_odd_toNat]
    omega

theorem lfsrClocks_toNat (mode : Bool) (n : Nat) (r : BitVec 15) :
    (lfsrClocks mode n r).toNat = noiseShifts mode n r.toNat := by
  induction n generalizing r with
  | zero => rfl
  | succ n ih => rw [lfsrClocks, ih, lfsrClock_toNat, noiseShifts]

/-- The noise channel is up while bit 0 of its register is 0 (R333). -/
theorem noiseLevel_eq (ch : Noise) : (if ch.lfsr.getLsbD 0 then -1 else 1 : Rat) * gain ch.volume =
    if ch.lfsr.toNat % 2 = 0 then (ch.volume.toNat : Rat) / 15 else -((ch.volume.toNat : Rat) / 15) := by
  have low : ch.lfsr.getLsbD 0 = true ↔ ¬ ch.lfsr.toNat % 2 = 0 := by
    rw [getLsbD_eq_decide, decide_eq_true_eq, Nat.pow_zero, Nat.div_one]
    omega
  rw [← signed_gain]
  simp only [low, ite_not]

theorem noiseSample_eq (ch : Noise) : noiseSample ch = noiseOut ch := by
  have clocks (n : Nat) : lfsrClocks ch.mode n ch.lfsr = BitVec.ofNat 15 (noiseShifts ch.mode n ch.lfsr.toNat) := by
    rw [← lfsrClocks_toNat, BitVec.ofNat_toNat, BitVec.setWidth_eq]
  unfold noiseSample noiseOut
  by_cases silent : ch.silent = true
  · rw [if_pos silent, if_pos ((Noise.silent_iff ch).1 silent)]
  · rw [if_neg silent, if_neg (mt (Noise.silent_iff ch).2 silent), ← noiseLevel_eq]
    dsimp only [noiseRounds]
    rw [clocks]
    rfl

/-- Each round of R333's loop begins with at least 1 left, and the last leaves less. -/
theorem noiseRounds_bounds (acc : Rat) :
    (∀ j : Nat, j < acc.floor.toNat → 1 ≤ acc - (j : Rat)) ∧ acc - (acc.floor.toNat : Rat) < 1 := by
  constructor
  · intro j lt
    have whole : ((j + 1 : Nat) : Int) ≤ acc.floor := by omega
    have below := Rat.le_floor_iff.1 whole
    push_cast at below
    grind
  · have above := Rat.lt_floor_add_one acc
    have floorLe : acc.floor ≤ (acc.floor.toNat : Int) := Int.self_le_toNat _
    have cast : (acc.floor : Rat) ≤ (acc.floor.toNat : Rat) := by exact_mod_cast floorLe
    push_cast at above
    grind

/-! ## The filter (R336) -/

theorem filterStages_eq (newFirst : Bool) (old m : Rat) :
    filterStage newFirst (9 / 10) (1 / 10) (filterStage newFirst (4 / 5) (1 / 5) m old) old =
      if newFirst then (18 / 25) * m + (7 / 25) * old else (1 / 50) * m + (49 / 50) * old := by
  unfold filterStage
  cases newFirst with
  | false =>
    simp only [Bool.false_eq_true, if_false]
    grind
  | true =>
    simp only [if_true]
    grind

theorem filter_eq (p : Params) (old m : Rat) : filter p old m = lowPassed p.filterNewFirst old m :=
  congrArg (fun y => clamp y (-1) 1) (filterStages_eq p.filterNewFirst old m)

/-! ## One call of `generate_frame_audio` (R330, R337) -/

/-- The last `n` entries of a list. -/
def lastOf (n : Nat) (l : List Rat) : List Rat := l.drop (l.length - n)

theorem lastOf_of_length_le {n : Nat} {l : List Rat} (h : l.length ≤ n) : lastOf n l = l := by
  rw [lastOf, Nat.sub_eq_zero_of_le h, List.drop_zero]

/-- Entries dropped early are not among the last of the longer list. -/
theorem lastOf_lastOf_append (n : Nat) (l r : List Rat) : lastOf n (lastOf n l ++ r) = lastOf n (l ++ r) := by
  have appended : lastOf n l ++ r = (l ++ r).drop (l.length - n) :=
    (List.drop_append_of_le_length (Nat.sub_le ..)).symm
  have total : l.length - n + (l.length + r.length - (l.length - n) - n) = l.length + r.length - n := by omega
  rw [appended, lastOf, lastOf, List.drop_drop, List.length_drop, List.length_append, total]

theorem length_lastOf (n : Nat) (l : List Rat) : (lastOf n l).length = min n l.length := by
  rw [lastOf, List.length_drop]
  omega

theorem appendSample_eq_lastOf (y : Rat) {l : List Rat} (h : l.length ≤ bufferCap) :
    appendSample y l = lastOf bufferCap (l ++ [y]) := by
  rw [appendSample_eq y l h, lastOf]

theorem audioTick_eq (p : Params) (u : Apu) : audioTick p u =
    { (sampleOf p u).2 with samples := appendSample (sampleOf p u).1 u.samples } := by
  unfold audioTick sampleOf mix
  rw [pulseSample_eq, pulseSample_eq, triSample_eq, noiseSample_eq]
  dsimp only
  rw [filter_eq]

/-- The buffer takes no part in the synthesis. -/
theorem samplesOf_withBuffer (p : Params) (n : Nat) (u : Apu) (l : List Rat) :
    samplesOf p n { u with samples := l } = ((samplesOf p n u).1, { (samplesOf p n u).2 with samples := l }) := by
  induction n generalizing u with
  | zero => rfl
  | succ n ih =>
    have rest := ih (sampleOf p u).2
    rw [samplesOf, samplesOf]
    exact congrArg (fun r => ((sampleOf p u).1 :: r.1, r.2)) rest

theorem samplesOf_length (p : Params) (n : Nat) (u : Apu) : (samplesOf p n u).1.length = n := by
  induction n generalizing u with
  | zero => rfl
  | succ n ih => exact congrArg (· + 1) (ih (sampleOf p u).2)

theorem samplesOf_audioTick (p : Params) (n : Nat) (u : Apu) : samplesOf p n (audioTick p u) =
    ((samplesOf p n (sampleOf p u).2).1,
      { (samplesOf p n (sampleOf p u).2).2 with samples := appendSample (sampleOf p u).1 u.samples }) := by
  rw [audioTick_eq, samplesOf_withBuffer]

/-- The buffer apart, `n` ticks leave what the next `n` samples leave. -/
theorem audioTicks_unit (p : Params) (n : Nat) (u : Apu) :
    audioTicks p n u = { (samplesOf p n u).2 with samples := (audioTicks p n u).samples } := by
  induction n generalizing u with
  | zero => rfl
  | succ n ih =>
    have rest := ih (audioTick p u)
    rw [samplesOf_audioTick] at rest
    exact rest

/-- The buffer after `n` ticks: the last samples that fit, of the old ones followed by the next `n`. -/
theorem audioTicks_samples (p : Params) (n : Nat) {u : Apu} (h : u.samples.length ≤ bufferCap) :
    (audioTicks p n u).samples = lastOf bufferCap (u.samples ++ (samplesOf p n u).1) := by
  induction n generalizing u with
  | zero => rw [audioTicks, samplesOf, List.append_nil, lastOf_of_length_le h]
  | succ n ih =>
    have first : (audioTick p u).samples = lastOf bufferCap (u.samples ++ [(sampleOf p u).1]) := by
      rw [audioTick_eq, appendSample_eq_lastOf _ h]
    have capped : (audioTick p u).samples.length ≤ bufferCap := appendSample_capped _ h
    rw [audioTicks, ih capped, first, samplesOf_audioTick, lastOf_lastOf_append, List.append_assoc]
    rfl

theorem audioTicks_inRange (p : Params) (n : Nat) {u : Apu} (h : ∀ y ∈ u.samples, InRange y) :
    ∀ y ∈ (audioTicks p n u).samples, InRange y := by
  induction n generalizing u with
  | zero => exact h
  | succ n ih =>
    refine ih fun y mem => ?_
    rcases appendSample_mem mem with new | old
    · rw [new]; exact filter_inRange p _ _
    · exact h y old

theorem generateFrameAudio_samples (p : Params) {u : Apu} (h : u.samples.length ≤ 44100) :
    (generateFrameAudio p u).samples = lastOf 44100 (u.samples ++ (samplesOf p 735 u).1) := audioTicks_samples p 735 h

theorem generateFrameAudio_eq (p : Params) {u : Apu} (h : u.samples.length ≤ 44100) :
    let new := samplesOf p 735 u
    let all := u.samples ++ new.1
    generateFrameAudio p u = { new.2 with samples := all.drop (all.length - 44100) } := by
  intro new all
  exact (audioTicks_unit p 735 u).trans
    (congrArg (fun l => { new.2 with samples := l }) (generateFrameAudio_samples p h))

theorem generateFrameAudio_length (p : Params) {u : Apu} (h : u.samples.length ≤ 44100) :
    (generateFrameAudio p u).samples.length = min 44100 (u.samples.length + 735) := by
  rw [generateFrameAudio_samples p h, length_lastOf, List.length_append, samplesOf_length]

theorem lowPassed_zero (newFirst : Bool) : lowPassed newFirst 0 0 = 0 := by
  cases newFirst <;> decide +kernel

/-- From the reset state every channel is silent, so a sample is 0 and leaves the unit as it is (R340). -/
theorem sampleOf_reset (p : Params) (master : Rat) (on : Bool) :
    sampleOf p (resetApu master on) = (0, resetApu master on) := by
  have silence : lowPassed p.filterNewFirst 0 (master * (p.wPulse * (0 + 0) + p.wTri * 0 + p.wNoise * 0)) = 0 := by
    simp only [Rat.add_zero, Rat.mul_zero]
    exact lowPassed_zero p.filterNewFirst
  have same : sampleOf p (resetApu master on) = _ :=
    congrArg (fun y => (y, { resetApu master on with yPrev := y })) silence
  exact same

theorem samplesOf_reset (p : Params) (n : Nat) (master : Rat) (on : Bool) :
    samplesOf p n (resetApu master on) = (List.replicate n 0, resetApu master on) := by
  induction n with
  | zero => rfl
  | succ n ih => rw [samplesOf, sampleOf_reset, ih, List.replicate_succ]

/-- A pulse channel without frequency, volume or enable adds exactly 0 (R340). -/
theorem pulseSample_zero {ch : Pulse} (h : ch.freq = 0 ∨ ch.volume = 0 ∨ ch.enabled = false) :
    (pulseSample ch).1 = 0 := by
  have silent : ch.silent = true := by
    rw [Pulse.silent_iff]
    rcases h with freq | volume | off
    · exact .inr (.inl freq)
    · exact .inr (.inr (.inl ((toNat_eq_zero_iff _).2 volume)))
    · exact .inl off
  rw [pulseSample, if_pos silent]

/-- Settles O55: the channels and the filter are those of the statement, and so the buffer is. -/
theorem frameAudio : Obligations.FrameAudio := by
  refine ⟨pulseSample_eq, triSample_eq, noiseSample_eq, lfsrClock_toNat, noiseRounds_bounds, filter_eq,
    fun p u => generateFrameAudio_eq p, fun p u => generateFrameAudio_length p, fun p u => audioTicks_inRange p 735,
    fun ch => pulseSample_zero, fun p master on => ?_⟩
  have empty : (resetApu master on).samples.length = 0 := rfl
  have capped : (resetApu master on).samples.length ≤ 44100 := by omega
  have length := generateFrameAudio_length p capped
  refine ⟨by omega, fun y mem => ?_⟩
  rw [generateFrameAudio_samples p capped, samplesOf_reset] at mem
  exact List.eq_of_mem_replicate (List.mem_of_mem_drop mem)

end Sys2Proof.Machine

/-! # The cartridge (47_mapper.md) -/

namespace Sys2Proof.Machine

open Sys2Proof.Claims

/-! ## Construction (R350, R352) -/

theorem mapperOfId_none {n : Nat} (h : 4 ≤ n) : mapperOfId n = none := by
  obtain ⟨k, rfl⟩ := Nat.exists_eq_add_of_le' h
  rfl

/-- Each of the four identifiers has the mapper of its number and no other. -/
theorem mapperOfId_some : ∀ {n : Nat}, n < 4 → ∃ m, mapperOfId n = some m ∧
    (n = 0 ↔ m = .m0) ∧ (n = 1 ↔ m = .m1) ∧ (n = 2 ↔ m = .m2) ∧ (n = 3 ↔ m = .m3)
  | 0, _ => ⟨.m0, by decide⟩
  | 1, _ => ⟨.m1, by decide⟩
  | 2, _ => ⟨.m2, by decide⟩
  | 3, _ => ⟨.m3, by decide⟩

theorem headerMirroring_iff (m : Mirroring) : headerMirroring m = true ↔ m ≠ .singleLow ∧ m ≠ .singleHigh := by
  cases m <;> decide

theorem CartRecord.sized_iff (r : CartRecord) : r.sized = true ↔
    1 ≤ r.prgBanks ∧ r.prg.length = 16384 * r.prgBanks ∧ r.chr.length = 8192 * r.chrBanks ∧
      r.mirroring ≠ .singleLow ∧ r.mirroring ≠ .singleHigh := by
  simp only [CartRecord.sized, Bool.and_eq_true, decide_eq_true_eq, headerMirroring_iff, and_assoc]
  rfl

/-- The cartridge that a record with mapper `m` describes. -/
def CartRecord.cart (r : CartRecord) (m : MapperId) : Cart :=
  { mapperId := m, prgBanks := r.prgBanks, chrBanks := r.chrBanks, mirroring := r.mirroring, hasPrgRam := r.hasPrgRam
    prg := Memory.ofBytes 0 r.prg, chr := Memory.ofBytes 0 r.chr }

theorem CartRecord.toCart_of_mapper {r : CartRecord} {m : MapperId} (mapper : mapperOfId r.mapperId = some m) :
    r.toCart = if r.sized then some (r.cart m) else none := by
  rw [CartRecord.toCart, mapper]
  rfl

theorem CartRecord.toCart_none {r : CartRecord} (bad : ¬ (r.mapperId < 4 ∧ r.sized = true)) : r.toCart = none := by
  by_cases known : r.mapperId < 4
  · obtain ⟨m, mapper, -⟩ := mapperOfId_some known
    rw [toCart_of_mapper mapper, if_neg (fun sized => bad ⟨known, sized⟩)]
  · rw [CartRecord.toCart, mapperOfId_none (by omega)]

theorem construct_none {r : CartRecord} (h : r.toCart = none) (p : Params) (irq : List Nat) :
    construct p irq r = .refused .badCartridge := by
  rw [construct, h]

theorem construct_some {r : CartRecord} {c : Cart} (h : r.toCart = some c) (p : Params) (irq : List Nat) :
    construct p irq r = .next (powerOnState { params := p, cart := c, irqIn := irq }) := by
  rw [construct, h]

theorem read_ofBytes_zero {bytes : List Byte} {k : Nat} (h : k < bytes.length) :
    (Memory.ofBytes 0 bytes).read k = bytes.getD k 0 := by
  simpa only [Nat.zero_add] using Memory.read_ofBytes bytes 0 k h

/-- Settles O59: a record has a cartridge exactly when its identifier and its sizes are good. -/
theorem construction : Obligations.Construction := by
  intro p irq r
  dsimp only
  rw [← r.sized_iff]
  refine ⟨fun bad => construct_none (CartRecord.toCart_none bad) p irq, fun ⟨known, sized⟩ => ?_⟩
  obtain ⟨m, mapper, numbers⟩ := mapperOfId_some known
  obtain ⟨zero, one, two, three⟩ := numbers
  have cart : r.toCart = some (r.cart m) := (CartRecord.toCart_of_mapper mapper).trans (if_pos sized)
  exact ⟨_, construct_some cart p irq, rfl, rfl, mapper, zero, one, two, three, rfl, rfl, rfl, rfl,
    fun _ => read_ofBytes_zero, fun _ => read_ofBytes_zero⟩

/-! ## The ROM window (R353 to R359, R364, R367) -/

theorem cpuWrite_rom {a : Word} (h : 0x8000 ≤ a) (d : Byte) (s : State) :
    cpuWrite a d s = { s with mapper := writePrg s.cfg.cart a d s.mapper } := by
  rw [cpuWrite, if_neg (by bv_omega), if_neg (by bv_omega), if_neg (by bv_omega), if_neg (by bv_omega),
    if_neg (by bv_omega), if_neg (by bv_omega), if_neg (by bv_omega)]

theorem romOffset_eq_sub {a : Word} (h : 0x8000 ≤ a) : romOffset a = a.toNat - 32768 := by
  have low : romOffset a = a.toNat % 32768 := by
    rw [romOffset, BitVec.toNat_and]
    exact Nat.and_two_pow_sub_one_eq_mod a.toNat 15
  rw [low]
  bv_omega

theorem bankOffset_eq (a : Word) : bankOffset a = a.toNat % 16384 := pictureAddr_toNat a

section
variable {cart : Cart} (m : MapperRegs) (a : Word) (d : Byte)

theorem readPrg_fixed (uses : cart.mapperId = .m0 ∨ cart.mapperId = .m3) : readPrg cart m a = readPrgFixed cart a := by
  rcases uses with uses | uses <;> rw [readPrg, uses]

theorem readPrg_m1 (uses : cart.mapperId = .m1) : readPrg cart m a = readPrgMmc1 cart m a := by rw [readPrg, uses]

theorem readPrg_m2 (uses : cart.mapperId = .m2) : readPrg cart m a = readPrgSwitched cart m a := by rw [readPrg, uses]

theorem writePrg_m0 (uses : cart.mapperId = .m0) : writePrg cart a d m = m := by rw [writePrg, uses]

theorem writePrg_m1 (uses : cart.mapperId = .m1) : writePrg cart a d m = mmc1Write a d m := by rw [writePrg, uses]

theorem writePrg_m2 (uses : cart.mapperId = .m2) : writePrg cart a d m = { m with prgSel := d } := by rw [writePrg, uses]

theorem writePrg_m3 (uses : cart.mapperId = .m3) : writePrg cart a d m = { m with chrSel := d } := by rw [writePrg, uses]

end

/-- Mapper 2: the selected bank, then the last one, which is below the number of banks as it stands (R356). -/
theorem readPrgSwitched_eq {cart : Cart} (banks : 0 < cart.prgBanks) (m : MapperRegs) (a : Word) :
    readPrgSwitched cart m a = cart.prg.read (if a < 0xC000 then
      16384 * (m.prgSel.toNat % cart.prgBanks) + a.toNat % 16384
      else 16384 * (cart.prgBanks - 1) + a.toNat % 16384) := by
  have last : (cart.prgBanks - 1) % cart.prgBanks = cart.prgBanks - 1 := Nat.mod_eq_of_lt (by omega)
  unfold readPrgSwitched prgByte
  rw [bankOffset_eq, last]
  split <;> rfl

theorem lowField_toNat {n : Nat} (v : BitVec n) (len : Nat) : (field v 0 len).toNat = v.toNat % 2 ^ len := by
  rw [field_toNat, Nat.pow_zero, Nat.div_one]

/-- The two banks of a 32 KB pair: the bank number with bit 0 clear, and with bit 0 set (R364). -/
theorem bankPair_toNat : ∀ n : BitVec 4,
    (n &&& 0xE).toNat = 2 * (n.toNat / 2) ∧ ((n &&& 0xE) ||| 1).toNat = 2 * (n.toNat / 2) + 1 := by decide

/-- Mapper 1's bank in numbers (R364). -/
theorem mmc1PrgBank_eq (cart : Cart) (m : MapperRegs) (a : Word) : mmc1PrgBank cart m a =
    if m.prgMode.toNat < 2 then 2 * (m.prgBank.toNat % 16 / 2) + (if a < 0xC000 then 0 else 1)
    else if m.prgMode.toNat = 2 then (if a < 0xC000 then 0 else m.prgBank.toNat % 16)
    else (if a < 0xC000 then m.prgBank.toNat % 16 else cart.prgBanks - 1) := by
  have low : (field m.prgBank 0 4).toNat = m.prgBank.toNat % 16 := lowField_toNat m.prgBank 4
  obtain ⟨even, odd⟩ := bankPair_toNat (field m.prgBank 0 4)
  have half := apply_ite (2 * (m.prgBank.toNat % 16 / 2) + ·) (a < 0xC000) 0 1
  have range : m.prgMode.toNat < 4 := m.prgMode.isLt
  rw [low] at even odd
  unfold mmc1PrgBank
  dsimp only
  rw [even, odd, low]
  generalize m.prgMode.toNat = mode at *
  match mode, range with
  | 0, _ => exact half.symm
  | 1, _ => exact half.symm
  | 2, _ => rfl
  | 3, _ => rfl

theorem readPrgMmc1_eq (cart : Cart) (m : MapperRegs) (a : Word) :
    readPrgMmc1 cart m a = cart.prg.read (16384 * (mmc1PrgBank cart m a % cart.prgBanks) + a.toNat % 16384) := by
  rw [readPrgMmc1, prgByte, bankOffset_eq]
  rfl

/-! ## Pattern memory (R355, R358, R365, R368) -/

/-- The two banks of an 8 KB pair: the bank number with bit 0 clear, and with bit 0 set (R365). -/
theorem patternPair_toNat : ∀ n : BitVec 5,
    (n &&& 0x1E).toNat = n.toNat / 2 * 2 ∧ ((n &&& 0x1E) ||| 1).toNat = n.toNat / 2 * 2 + 1 := by decide

theorem mmc1ChrBank_eq (m : MapperRegs) (a : Nat) : mmc1ChrBank m a =
    if m.chrMode then (if a < 4096 then m.chrBank0.toNat else m.chrBank1.toNat)
    else (if a < 4096 then m.chrBank0.toNat / 2 * 2 else m.chrBank0.toNat / 2 * 2 + 1) := by
  obtain ⟨even, odd⟩ := patternPair_toNat m.chrBank0
  rw [mmc1ChrBank, even, odd]

theorem chrIndex_eq_patternIndex (s : State) (a : Nat) : chrIndex s.cfg.cart s.mapper a = patternIndex s a := by
  unfold chrIndex patternIndex
  cases s.cfg.cart.mapperId
  case m1 => dsimp only; rw [mmc1ChrBank_eq]
  all_goals rfl

theorem ppuRead_pattern {a : Word} (h : a < 0x2000) (s : State) : ppuRead s a =
    if s.cfg.cart.chrBanks = 0 then s.chrRam.read (patternIndex s a.toNat)
    else s.cfg.cart.chr.read (patternIndex s a.toNat) := by
  simp only [ppuRead, pictureAddr_of_lt (show a < 0x4000 by bv_omega)]
  rw [if_pos (by bv_omega), readChr, chrIndex_eq_patternIndex]

theorem ppuWrite_pattern {a : Word} (h : a < 0x2000) (d : Byte) (s : State) : ppuWrite a d s =
    if s.cfg.cart.chrBanks = 0 then { s with chrRam := s.chrRam.write (patternIndex s a.toNat) d } else s := by
  simp only [ppuWrite, pictureAddr_of_lt (show a < 0x4000 by bv_omega)]
  rw [if_pos (by bv_omega), writeChr, chrIndex_eq_patternIndex]
  split <;> rfl

/-- Settles O57, mapper by mapper. -/
theorem romBanks : Obligations.RomBanks := by
  refine ⟨fun s a h => ?_, fun s a d h => ⟨ppuRead_pattern h s, ppuWrite_pattern h d s⟩⟩
  dsimp only
  rw [byteAt_rom h]
  refine ⟨fun uses => ?_, fun d uses => ?_, fun d uses => ?_, fun uses banks => ⟨?_, fun d => ?_⟩, fun uses => ?_⟩
  · rw [readPrg_fixed s.mapper a uses, readPrgFixed, romOffset_eq_sub h]
    rfl
  · rw [cpuWrite_rom h, writePrg_m0 s.mapper a d uses]
  · rw [cpuWrite_rom h, writePrg_m3 s.mapper a d uses]
  · rw [readPrg_m2 s.mapper a uses, readPrgSwitched_eq banks]
  · rw [cpuWrite_rom h, writePrg_m2 s.mapper a d uses]
  · rw [readPrg_m1 s.mapper a uses, readPrgMmc1_eq, mmc1PrgBank_eq]

/-! ## Mapper 1's serial port (R361 to R363) -/

/-- Mapper 1's shift register with bit 0 of `d` at place `k`. -/
def shiftIn (sr : BitVec 5) (k : Nat) (d : Byte) : BitVec 5 :=
  sr ||| ((BitVec.ofBool (d.getLsbD 0)).setWidth 5 <<< k)

theorem mmc1Write_clear {d : Byte} (top : d.getLsbD 7 = true) (a : Word) (m : MapperRegs) :
    mmc1Write a d m = { m with sr := 0, srCount := 0, prgMode := 3 } := by
  rw [mmc1Write, if_pos top]

/-- A full shift register reaches the register that the address names, in the ranges of R363. -/
theorem mmc1Commit_eq_loadedBy {a : Word} (h : 0x8000 ≤ a) (v : BitVec 5) (m : MapperRegs) :
    mmc1Commit (field a 13 2) v m = loadedBy a v m := by
  have place : (field a 13 2).toNat = a.toNat / 8192 % 4 := field_toNat a 13 2
  have mirror : (field v 0 2).toNat = v.toNat % 4 := lowField_toNat v 2
  have high : v.getLsbD 4 = decide (16 ≤ v.toNat) := by
    rw [getLsbD_eq_decide]
    have range : v.toNat < 32 := v.isLt
    exact decide_eq_decide.2 (by omega)
  have window : 32768 ≤ a.toNat := h
  have range : a.toNat < 65536 := a.isLt
  unfold mmc1Commit loadedBy
  rw [place, mirror, high, field_eq_ofNat]
  by_cases control : a < 0xA000
  · rw [if_pos control, show a.toNat / 8192 % 4 = 0 by bv_omega]
    have small : v.toNat % 4 < 4 := by omega
    generalize v.toNat % 4 = low at *
    match low, small with
    | 0, _ => rfl
    | 1, _ => rfl
    | 2, _ => rfl
    | 3, _ => rfl
  rw [if_neg control]
  by_cases bank0 : a < 0xC000
  · rw [if_pos bank0, show a.toNat / 8192 % 4 = 1 by bv_omega]
    rfl
  rw [if_neg bank0]
  by_cases bank1 : a < 0xE000
  · rw [if_pos bank1, show a.toNat / 8192 % 4 = 2 by bv_omega]
    rfl
  · rw [if_neg bank1, show a.toNat / 8192 % 4 = 3 by bv_omega]
    rfl

/-- Loading a register neither looks at the shift register nor writes it. -/
theorem loadedBy_emptied (a : Word) (v : BitVec 5) {m : MapperRegs} (empty : m.sr = 0) (zero : m.srCount = 0)
    (sr : BitVec 5) (count : Nat) :
    { loadedBy a v { m with sr := sr, srCount := count } with sr := 0, srCount := 0 } = loadedBy a v m := by
  cases m
  subst empty zero
  unfold loadedBy
  by_cases control : a < 0xA000
  · simp only [control, if_true]
  by_cases bank0 : a < 0xC000
  · simp only [control, bank0, if_true, if_false]
  by_cases bank1 : a < 0xE000 <;> simp only [control, bank0, bank1, if_true, if_false]

theorem mmc1Write_serial {a : Word} {d : Byte} (h : 0x8000 ≤ a) (top : d.getLsbD 7 = false) (m : MapperRegs) :
    mmc1Write a d m =
      if m.srCount = 4 then { loadedBy a (shiftIn m.sr m.srCount d) m with sr := 0, srCount := 0 }
      else { m with sr := shiftIn m.sr m.srCount d, srCount := m.srCount + 1 } := by
  rw [mmc1Write, if_neg (by rw [top]; decide)]
  simp only [mmc1Commit_eq_loadedBy h, Nat.reduceEqDiff]
  rfl

theorem shiftIn_eq_ofNat (sr : BitVec 5) (k : Nat) (d : Byte) :
    shiftIn sr k d = sr ||| BitVec.ofNat 5 (d.toNat % 2 * 2 ^ k) := by
  have bit : (BitVec.ofBool (d.getLsbD 0)).setWidth 5 = BitVec.ofNat 5 (d.toNat % 2) := by
    have two := Nat.mod_two_eq_zero_or_one d.toNat
    rw [getLsbD_eq_decide, Nat.pow_zero, Nat.div_one]
    rcases two with h | h <;> rw [h] <;> rfl
  rw [shiftIn, bit]
  apply congrArg (sr ||| ·)
  apply BitVec.eq_of_toNat_eq
  rw [BitVec.toNat_shiftLeft, BitVec.toNat_ofNat, BitVec.toNat_ofNat, Nat.shiftLeft_eq, Nat.mod_mul_mod]

/-- The lowest `k` bits of a five-bit value: the shift register after `k` of its five writes. -/
def lowBits (v : BitVec 5) (k : Nat) : BitVec 5 := (v.setWidth k).setWidth 5

theorem lowBits_zero (v : BitVec 5) : lowBits v 0 = 0 := by
  rw [lowBits, BitVec.eq_nil (v.setWidth 0)]
  rfl

theorem lowBits_five (v : BitVec 5) : lowBits v 5 = v := by rw [lowBits, BitVec.setWidth_eq, BitVec.setWidth_eq]

theorem shiftIn_lowBits {v : BitVec 5} {k : Nat} {d : Byte} (bit : d.getLsbD 0 = v.getLsbD k) :
    shiftIn (lowBits v k) k d = lowBits v (k + 1) := by
  apply BitVec.eq_of_getLsbD_eq
  intro i hi
  simp only [shiftIn, lowBits, bit, BitVec.getLsbD_or, BitVec.getLsbD_shiftLeft, BitVec.getLsbD_setWidth,
    BitVec.getLsbD_ofBool, hi, decide_true, Bool.true_and]
  rcases Nat.lt_trichotomy i k with h | rfl | h
  · rw [decide_eq_true h, decide_eq_true (Nat.lt_succ_of_lt h)]
    simp only [Bool.not_true, Bool.true_and, Bool.false_and, Bool.or_false]
  · rw [decide_eq_false (Nat.lt_irrefl i), decide_eq_true (Nat.lt_succ_self i), Nat.sub_self,
      decide_eq_true (show 0 < 5 by decide)]
    simp only [decide_true, Bool.not_false, Bool.true_and, Bool.false_and, Bool.false_or]
  · rw [decide_eq_false (Nat.not_lt_of_gt h), decide_eq_false (show ¬ i < k + 1 by omega),
      decide_eq_false (show ¬ i - k = 0 by omega)]
    simp only [Bool.false_and, Bool.and_false, Bool.or_false]

/-- `s` while five bits are loaded: the first `k` of them are in mapper 1's shift register. -/
def loading (v : BitVec 5) (k : Nat) (s : State) : State :=
  { s with mapper := { s.mapper with sr := lowBits v k, srCount := k } }

theorem loading_zero {s : State} (empty : s.mapper.sr = 0) (zero : s.mapper.srCount = 0) (v : BitVec 5) :
    s = loading v 0 s := by
  rw [loading, lowBits_zero, ← empty, ← zero]

section
variable {s : State} {a : Word} {d : Byte} {v : BitVec 5} (uses : s.cfg.cart.mapperId = .m1) (h : 0x8000 ≤ a)
include uses h

theorem cpuWrite_clear (top : d.getLsbD 7 = true) :
    cpuWrite a d s = { s with mapper := { s.mapper with sr := 0, srCount := 0, prgMode := 3 } } := by
  rw [cpuWrite_rom h, writePrg_m1 s.mapper a d uses, mmc1Write_clear top]

theorem cpuWrite_serial (top : d.getLsbD 7 = false) : cpuWrite a d s = { s with mapper :=
    if s.mapper.srCount = 4 then
      { loadedBy a (shiftIn s.mapper.sr s.mapper.srCount d) s.mapper with sr := 0, srCount := 0 }
    else { s.mapper with sr := shiftIn s.mapper.sr s.mapper.srCount d, srCount := s.mapper.srCount + 1 } } := by
  rw [cpuWrite_rom h, writePrg_m1 s.mapper a d uses, mmc1Write_serial h top]

theorem cpuWrite_loading {k : Nat} (more : k ≠ 4) (carries : carriesBit d (v.getLsbD k)) :
    cpuWrite a d (loading v k s) = loading v (k + 1) s := by
  obtain ⟨top, bit⟩ := carries
  have serial := cpuWrite_serial (s := loading v k s) uses h top
  rw [if_neg (show ¬ (loading v k s).mapper.srCount = 4 from more)] at serial
  rw [serial, loading, shiftIn_lowBits bit, loading]

theorem cpuWrite_loaded (empty : s.mapper.sr = 0) (zero : s.mapper.srCount = 0) (carries : carriesBit d (v.getLsbD 4)) :
    cpuWrite a d (loading v 4 s) = { s with mapper := loadedBy a v s.mapper } := by
  obtain ⟨top, bit⟩ := carries
  have serial := cpuWrite_serial (s := loading v 4 s) uses h top
  rw [if_pos (show (loading v 4 s).mapper.srCount = 4 from rfl)] at serial
  have full : shiftIn (loading v 4 s).mapper.sr (loading v 4 s).mapper.srCount d = v :=
    (shiftIn_lowBits bit).trans (lowBits_five v)
  have emptied := loadedBy_emptied a v empty zero (lowBits v 4) 4
  rw [serial, full]
  exact congrArg (fun m => { s with mapper := m }) emptied

end

/-- Settles O56: each of the first four writes adds its bit to those loaded, and the fifth loads all five. -/
theorem serialBankWrite : Obligations.SerialBankWrite := by
  refine ⟨fun s a d uses h top => cpuWrite_clear uses h ?_, fun s a d uses h top _ => ?_, ?_⟩
  · rw [bit7_eq, decide_eq_true top]
  · have low : d.getLsbD 7 = false := by rw [bit7_eq]; exact decide_eq_false (by omega)
    intro v
    rw [cpuWrite_serial uses h low, shiftIn_eq_ofNat]
  · intro s v a0 a1 a2 a3 a4 d0 d1 d2 d3 d4 uses empty zero h0 h1 h2 h3 h4 b0 b1 b2 b3 b4
    have start : s = loading v 0 s := loading_zero empty zero v
    calc cpuWrite a4 d4 (cpuWrite a3 d3 (cpuWrite a2 d2 (cpuWrite a1 d1 (cpuWrite a0 d0 s))))
      _ = cpuWrite a4 d4 (cpuWrite a3 d3 (cpuWrite a2 d2 (cpuWrite a1 d1 (cpuWrite a0 d0 (loading v 0 s))))) := by
        rw [← start]
      _ = cpuWrite a4 d4 (loading v 4 s) := by
        rw [cpuWrite_loading uses h0 (by decide) b0, cpuWrite_loading uses h1 (by decide) b1,
          cpuWrite_loading uses h2 (by decide) b2, cpuWrite_loading uses h3 (by decide) b3]
      _ = { s with mapper := loadedBy a4 v s.mapper } := cpuWrite_loaded uses h4 empty zero b4

end Sys2Proof.Machine

/-! # The controller ports (48_controller.md) -/

namespace Sys2Proof.Machine

open Sys2Proof.Claims

/-! ## The strobe write (R381) -/

theorem cpuWrite_strobe (d : Byte) (s : State) : cpuWrite 0x4016 d s = { s with pads :=
    if s.pads.strobe = true ∧ d.toNat % 2 = 0 then { shift0 := s.buttons0, shift1 := s.buttons1, strobe := false }
    else { s.pads with strobe := decide (d.toNat % 2 = 1) } } := by
  have bit : d.getLsbD 0 = decide (d.toNat % 2 = 1) := by
    rw [bit0_eq, beq_eq_decide_eq]
  change writeStrobe d s = _
  rw [writeStrobe, bit]
  by_cases even : d.toNat % 2 = 0
  · cases s.pads.strobe <;> simp [even]
  · simp [even]

/-- A 1 and then a 0 written to 0x4016 take the snapshot, whatever the strobe was. -/
theorem writesOf_pulse (s : State) : writesOf [(0x4016, 1), (0x4016, 0)] s =
    { s with pads := { shift0 := s.buttons0, shift1 := s.buttons1, strobe := false } } := by
  have raised : cpuWrite 0x4016 1 s = { s with pads := { s.pads with strobe := true } } := by
    rw [cpuWrite_strobe, if_neg (fun h => absurd h.2 (by decide))]
    rfl
  rw [writesOf, writesOf, writesOf, raised, cpuWrite_strobe, if_pos ⟨rfl, by decide⟩]

/-! ## One read (R382) -/

theorem padByte_eq (b : Bool) : padByte b = if b then 0x41 else 0x40 := by
  cases b <;> rfl

section
variable {s : State}

theorem cpuRead_pad0_strobed (strobed : s.pads.strobe = true) :
    cpuRead 0x4016 s = (padByte (s.buttons0.getLsbD 0), s) := by
  change readPad0 s = _
  rw [readPad0, if_pos strobed]

theorem cpuRead_pad1_strobed (strobed : s.pads.strobe = true) :
    cpuRead 0x4017 s = (padByte (s.buttons1.getLsbD 0), s) := by
  change readPad1 s = _
  rw [readPad1, if_pos strobed]

theorem cpuRead_pad0_shifts (idle : s.pads.strobe = false) : cpuRead 0x4016 s =
    (padByte (s.pads.shift0.getLsbD 0), { s with pads := { s.pads with shift0 := padShift s.pads.shift0 } }) := by
  change readPad0 s = _
  rw [readPad0, if_neg (ne_true_of_eq_false idle)]

theorem cpuRead_pad1_shifts (idle : s.pads.strobe = false) : cpuRead 0x4017 s =
    (padByte (s.pads.shift1.getLsbD 0), { s with pads := { s.pads with shift1 := padShift s.pads.shift1 } }) := by
  change readPad1 s = _
  rw [readPad1, if_neg (ne_true_of_eq_false idle)]

end

/-! ## Reads one after the other (R382) -/

theorem readsOf_succ (a : Word) (n : Nat) (s : State) : readsOf a (n + 1) s =
    ((cpuRead a s).1 :: (readsOf a n (cpuRead a s).2).1, (readsOf a n (cpuRead a s).2).2) := rfl

/-- Reads that leave the state as it is all return the same byte. -/
theorem readsOf_unchanged {a : Word} {b : Byte} {s : State} (read : cpuRead a s = (b, s)) :
    ∀ n, readsOf a n s = (List.replicate n b, s)
  | 0 => rfl
  | n + 1 => by rw [readsOf_succ, read, readsOf_unchanged read n, List.replicate_succ]

/-- The bit that read number `k` of a register holding `r` returns: its eight bits, lowest first, and then 1. -/
def shiftedOut (r : Byte) (k : Nat) : Bool := decide (8 ≤ k) || r.getLsbD k

/-- The bit that comes out after a shift is the one that stood next in line. -/
theorem shiftedOut_padShift (r : Byte) (k : Nat) : shiftedOut (padShift r) k = shiftedOut r (k + 1) := by
  by_cases low : k < 8
  · interval_cases k <;> simp [shiftedOut, padShift]
  · simp [shiftedOut, show 8 ≤ k by omega, show 8 ≤ k + 1 by omega]

/-- The byte of a read after the snapshot: a 0 in bit 0 only for a button, one of the first eight, that is up. -/
theorem padByte_shiftedOut (r : Byte) (k : Nat) :
    padByte (shiftedOut r k) = if k < 8 ∧ r.getLsbD k = false then 0x40 else 0x41 := by
  rw [padByte_eq, shiftedOut]
  by_cases low : k < 8
  · rw [decide_eq_false (by omega), Bool.false_or]
    cases r.getLsbD k <;> simp [low]
  · rw [decide_eq_true (by omega), Bool.true_or, if_pos rfl, if_neg (fun up => low up.1)]

/-- Reads of a port at `a` that shift its register and keep the rest: `held r` is the state with `r` in the register. -/
theorem readsOf_shifts {a : Word} {held : Byte → State}
    (read : ∀ r, cpuRead a (held r) = (padByte (r.getLsbD 0), held (padShift r))) (n : Nat) (r : Byte) :
    readsOf a n (held r) = ((List.range n).map fun k => padByte (shiftedOut r k), held (padShift^[n] r)) := by
  induction n generalizing r with
  | zero => rfl
  | succ n ih =>
    have first : shiftedOut r 0 = r.getLsbD 0 := rfl
    rw [readsOf_succ, read, ih, List.range_succ_eq_map, List.map_cons, List.map_map, first, Function.iterate_succ_apply]
    simp only [Function.comp_def, shiftedOut_padShift]

theorem getElem?_map_shiftedOut (r : Byte) {n k : Nat} (h : k < n) :
    ((List.range n).map fun k => padByte (shiftedOut r k))[k]? =
      some (if k < 8 ∧ r.getLsbD k = false then 0x40 else 0x41) := by
  rw [List.getElem?_map, List.getElem?_range h, Option.map_some, padByte_shiftedOut]

theorem readsOf_pad0_idle (n : Nat) (r0 r1 : Byte) (s : State) :
    readsOf 0x4016 n { s with pads := { shift0 := r0, shift1 := r1, strobe := false } } =
      ((List.range n).map fun k => padByte (shiftedOut r0 k),
        { s with pads := { shift0 := padShift^[n] r0, shift1 := r1, strobe := false } }) :=
  readsOf_shifts (held := fun r => { s with pads := { shift0 := r, shift1 := r1, strobe := false } })
    (fun _ => cpuRead_pad0_shifts rfl) n r0

theorem readsOf_pad1_idle (n : Nat) (r0 r1 : Byte) (s : State) :
    readsOf 0x4017 n { s with pads := { shift0 := r0, shift1 := r1, strobe := false } } =
      ((List.range n).map fun k => padByte (shiftedOut r1 k),
        { s with pads := { shift0 := r0, shift1 := padShift^[n] r1, strobe := false } }) :=
  readsOf_shifts (held := fun r => { s with pads := { shift0 := r0, shift1 := r, strobe := false } })
    (fun _ => cpuRead_pad1_shifts rfl) n r1

/-- Settles O43: after a pulse the reads of a port shift its snapshot out; while the strobe is 1 they change nothing. -/
theorem controllerReads : Obligations.ControllerReads := by
  intro s d n
  refine ⟨cpuWrite_strobe d s, ?_, ?_, fun strobed => ⟨?_, ?_⟩, fun idle => ⟨?_, ?_⟩⟩
  · simp only [writesOf_pulse, readsOf_pad0_idle, and_true]
    exact fun _ => getElem?_map_shiftedOut s.buttons0
  · simp only [writesOf_pulse, readsOf_pad1_idle, and_true]
    exact fun _ => getElem?_map_shiftedOut s.buttons1
  · rw [← padByte_eq]; exact readsOf_unchanged (cpuRead_pad0_strobed strobed) n
  · rw [← padByte_eq]; exact readsOf_unchanged (cpuRead_pad1_strobed strobed) n
  · rw [← padByte_eq, ← padShift_eq]; exact cpuRead_pad0_shifts idle
  · rw [← padByte_eq, ← padShift_eq]; exact cpuRead_pad1_shifts idle

end Sys2Proof.Machine

/-! # Interrupts and the host (60_exceptions.md, 70_reset_and_hazards.md) -/

namespace Sys2Proof.Machine

open Sys2Proof.Claims

/-! ## Every instruction and every step answers (60_exceptions.md R400, R420) -/

/-- No arm of the dispatch stops the machine. -/
theorem exec_answers (i : Instr) (s : State) : ∃ t, exec i s = .next t := by
  cases i <;> exact ⟨_, rfl⟩

theorem executeStep_answers (s : State) : ∃ t, executeStep s = .next t := by
  unfold executeStep
  split
  · exact ⟨_, rfl⟩
  split
  · exact ⟨_, rfl⟩
  · exact exec_answers _ _

theorem cpuTick_answers (s : State) : ∃ t, cpuTick s = .next t := by
  unfold cpuTick
  dsimp only
  split
  · exact ⟨_, rfl⟩
  · exact executeStep_answers _

/-- A machine cycle is its CPU tick, after the dots and before the audio tick. -/
theorem machineCycle_of_cpuTick {s t : State} (h : cpuTick (threeDots s) = .next t) :
    machineCycle s = .next (audioUnitTick t) :=
  congrArg (afterNext audioUnitTick) h

theorem machineCycle_answers (s : State) : ∃ t, machineCycle s = .next t :=
  (cpuTick_answers (threeDots s)).imp' audioUnitTick fun _ => machineCycle_of_cpuTick

/-- A step is its machine cycle and then the count of the cycle. -/
theorem step_of_machineCycle {s t : State} (h : machineCycle s = .next t) : step s = .next (countCycle t) :=
  congrArg (afterNext countCycle) h

theorem step_answers (s : State) : ∃ t, step s = .next t :=
  (machineCycle_answers s).imp' countCycle fun _ => step_of_machineCycle

/-- Settles O11: every arm of the dispatch answers, and so does whatever else a CPU tick does. -/
theorem everyStepAnswers : Obligations.EveryStepAnswers := ⟨exec_answers, step_answers⟩

/-! ## Interrupt entry (R404, R405, R410, R411) -/

/-- What an entry does does not depend on the latches before it. -/
theorem EntryEffect.of_withLatches {k : IntKind} {nmi irq : Bool} {s t : State}
    (h : EntryEffect k (withLatches nmi irq s) t) : EntryEffect k s t :=
  { h with
    pc := by rw [h.pc, byteAt_withLatches, byteAt_withLatches]
    memory := fun a mem off => (h.memory a mem off).trans (byteAt_withLatches nmi irq s a) }

/-- Taking an interrupt with the latches put at given values: the entry sequence, the pushed status byte in numbers, the
latches as put, and the cycles of the entry and any stall owed in `wait`. -/
theorem interrupt_withLatches_effect (k : IntKind) (nmi irq : Bool) {s : State} (wf : s.ram.wf = true) :
    let t := (interrupt k (withLatches nmi irq s)).finish interruptCycles
    EntryEffect k s t ∧
      (byteAt t (stackAddr (s.cpu.sp - 2))).toNat = statusNumber k.breakBit s.cpu.flags ∧
      t.cpu.pc = word (byteAt s (k.vector + 1)) (byteAt s k.vector) ∧
      t.cpu.pendNMI = nmi ∧ t.cpu.pendIRQ = irq ∧ t.cpu.wait = 6 + s.cpu.dmaStall ∧ t.cpu.dmaStall = 0 := by
  intro t
  have entry : EntryEffect k s t :=
    (interrupt_finish_entryEffect k interruptCycles (s := withLatches nmi irq s) wf).of_withLatches
  have cpu := interrupt_finish_cpu k interruptCycles (withLatches nmi irq s)
  exact ⟨entry, (congrArg BitVec.toNat entry.pushedStatus).trans (toByte_toNat k.breakBit s.cpu.flags), entry.pc,
    congrArg Cpu.pendNMI cpu, congrArg Cpu.pendIRQ cpu, congrArg Cpu.wait cpu, congrArg Cpu.dmaStall cpu⟩

/-- A step at a boundary with the NMI latched takes it. -/
theorem step_nmi {s : State} (free : (atTick s).cpu.wait = 0) (nmi : (atTick s).cpu.pendNMI = true) :
    step s = .next (closeCycle (serviceNmi (atTick s))) := by
  rcases step_cases s with ⟨busy, -⟩ | ⟨-, -, next⟩ | ⟨-, noNmi, -⟩ | ⟨-, noNmi, -⟩
  · exact absurd free (Nat.ne_of_gt busy)
  · exact next
  · exact absurd (noNmi.symm.trans nmi) Bool.false_ne_true
  · exact absurd (noNmi.symm.trans nmi) Bool.false_ne_true

/-- A step at a boundary with no NMI, the IRQ latched and I = 0 takes the IRQ. -/
theorem step_irq {s : State} (free : (atTick s).cpu.wait = 0) (noNmi : (atTick s).cpu.pendNMI = false)
    (irq : (atTick s).cpu.pendIRQ = true) (enabled : s.cpu.flags.i = false) :
    step s = .next (closeCycle (serviceIrq (atTick s))) := by
  rcases step_cases s with ⟨busy, -⟩ | ⟨-, nmi, -⟩ | ⟨-, -, -, -, next⟩ | ⟨-, -, noIrq | masked, -⟩
  · exact absurd free (Nat.ne_of_gt busy)
  · exact absurd (noNmi.symm.trans nmi) Bool.false_ne_true
  · exact next
  · exact absurd (noIrq.symm.trans irq) Bool.false_ne_true
  · exact absurd (enabled.symm.trans masked) Bool.false_ne_true

/-- Only taking the IRQ clears its latch, and I = 1 keeps that from happening. -/
theorem step_masked_pendIRQ {s t : State} (irq : s.cpu.pendIRQ = true) (masked : s.cpu.flags.i = true)
    (next : step s = .next t) : t.cpu.pendIRQ = true := by
  have latched : (atTick s).cpu.pendIRQ = true := Bool.or_eq_true_iff.2 (.inl irq)
  rcases step_cases s with ⟨-, idle⟩ | ⟨-, -, nmi⟩ | ⟨-, -, -, enabled, -⟩ | ⟨-, -, -, run⟩
  · obtain rfl := Host.Outcome.next.inj (idle.symm.trans next)
    rw [closeCycle_cpu]
    exact latched
  · obtain rfl := Host.Outcome.next.inj (nmi.symm.trans next)
    rw [closeCycle_cpu, serviceNmi, interrupt_finish_cpu]
    exact latched
  · exact absurd (enabled.symm.trans masked) Bool.false_ne_true
  · obtain ⟨u, ran⟩ := exec_answers (fetchInstr (atTick s)).1 (fetchInstr (atTick s)).2
    obtain rfl := Host.Outcome.next.inj ((run.trans (congrArg (afterNext closeCycle) ran)).symm.trans next)
    rw [closeCycle_cpu, (exec_latches ran).2, fetchInstr_cpu]
    exact latched

/-- Settles O8: at the boundary the NMI comes first; its entry puts the latch at 0 and leaves that of the IRQ. -/
theorem nmiEntry : Obligations.NmiEntry := by
  intro s wf free nmi
  refine ⟨_, ?_, interrupt_withLatches_effect .nmi false (atTick s).cpu.pendIRQ (s := atTick s) wf⟩
  rw [← closeCycle_eq_afterCycle]
  exact step_nmi free nmi

/-- Settles O9: at the boundary the IRQ comes second, with I = 0; with I = 1 nothing clears its latch. -/
theorem irqEntry : Obligations.IrqEntry := by
  refine ⟨fun s wf free noNmi irq enabled => ?_, fun s t => step_masked_pendIRQ⟩
  obtain ⟨entry, status, pc, nmi, effect⟩ :=
    interrupt_withLatches_effect .irq (atTick s).cpu.pendNMI false (s := atTick s) wf
  refine ⟨_, ?_, entry, status, pc, nmi.trans noNmi, effect⟩
  rw [← closeCycle_eq_afterCycle]
  exact step_irq free noNmi irq enabled

/-! ## What a machine cycle does to the clocks (R452) -/

/-- Reads of the CPU bus do not move the picture position. -/
theorem cpuRead_dotIndex (a : Word) (s : State) : dotIndex (cpuRead a s).2.ppu = dotIndex s.ppu := by
  unfold cpuRead ppuReadReg
  split
  · rfl
  split
  · split
    · rfl
    · rfl
    · rw [readData_state]; rfl
    · rfl
  split
  · rfl
  split
  · rw [readPad0_state]; split <;> rfl
  split
  · rw [readPad1_state]; split <;> rfl
  split
  · rfl
  split <;> rfl

theorem ppuWriteReg_dotIndex (r : BitVec 3) (d : Byte) (s : State) :
    dotIndex (ppuWriteReg r d s).ppu = dotIndex s.ppu := by
  unfold ppuWriteReg
  split
  case h_5 => dsimp only; unfold writeScroll; split <;> rfl
  case h_6 => dsimp only; unfold writeAddr; split <;> rfl
  case h_7 => rw [writeData_eq]; dsimp only; rw [ppuWrite_ppu]; rfl
  all_goals rfl

theorem dmaCopy_dotIndex (page : Byte) (n : Nat) (i : Byte) (s : State) :
    dotIndex (dmaCopy page n i s).ppu = dotIndex s.ppu := by
  induction n generalizing i s with
  | zero => rfl
  | succ n ih =>
    rw [dmaCopy_succ, ih]
    exact cpuRead_dotIndex (word page i) s

/-- Writes of the CPU bus do not move the picture position. -/
theorem cpuWrite_dotIndex (a : Word) (v : Byte) (s : State) : dotIndex (cpuWrite a v s).ppu = dotIndex s.ppu := by
  rcases cpuWrite_cases a v s with ⟨_, e⟩ | ⟨_, _, e⟩ | ⟨_, e⟩ | ⟨_, e⟩ | ⟨_, _, _, _, e⟩ | ⟨_, _, e⟩ |
    ⟨_, _, _, e⟩ | ⟨_, _, _, e⟩ | ⟨_, e⟩ <;> rw [e]
  case inr.inl => exact ppuWriteReg_dotIndex _ v s
  case inr.inr.inl => exact dmaCopy_dotIndex v 256 0 s
  case inr.inr.inr.inl => rw [writeStrobe_eq]

theorem BusReach.dotIndex_eq {s t : State} (h : BusReach s t) : dotIndex t.ppu = dotIndex s.ppu := by
  induction h with
  | refl => rfl
  | read a _ ih => exact (cpuRead_dotIndex a _).trans ih
  | write a v _ ih => exact (cpuWrite_dotIndex a v _).trans ih
  | cpu _ _ ih => exact ih
  | mark _ ih => exact ih

/-- The three dots of a cycle follow one another in the frame of 89342 dots (45_ppu.md R260). -/
theorem threeDots_dotIndex {s : State} (h : BusOk s) :
    dotIndex (threeDots s).ppu = (dotIndex s.ppu + 3) % 89342 := by
  have dot1 := ppuTick_dotIndex h.ppu
  have dot2 := ppuTick_dotIndex h.ppuTick.ppu
  have dot3 := ppuTick_dotIndex h.ppuTick.ppuTick.ppu
  unfold threeDots
  omega

/-- Interrupt entry or instruction: the CPU acts over the bus, within one tick. -/
theorem executeStep_reach {s t : State} (h : executeStep s = .next t) : Ended s t := by
  have taken (k : IntKind) (c : Cpu) (same : c.cyc = s.cpu.cyc) :
      Ended s ((interrupt k (s.setCpu c)).finish interruptCycles) := by
    obtain ⟨reach, stall, cyc⟩ := interrupt_reach k interruptCycles (s.setCpu c)
    exact ⟨(BusReach.cpu c .refl).trans reach, stall, cyc.trans same⟩
  unfold executeStep at h
  split at h
  · obtain rfl := Host.Outcome.next.inj h
    exact taken .nmi _ rfl
  split at h
  · obtain rfl := Host.Outcome.next.inj h
    exact taken .irq _ rfl
  · obtain ⟨reach, stall, cyc⟩ := exec_reach (i := (fetchInstr s).1) (s := (fetchInstr s).2) h
    exact ⟨(fetchInstr_reach s).trans reach, stall, cyc.trans (by rw [fetchInstr_cpu])⟩

theorem cpuTick_reach {s t : State} (h : cpuTick s = .next t) :
    BusReach s t ∧ t.cpu.cyc = s.cpu.cyc + 1 := by
  have counted : BusReach s (beginTick s) := .cpu _ .refl
  unfold cpuTick at h
  dsimp only at h
  split at h
  · obtain rfl := Host.Outcome.next.inj h
    exact ⟨.cpu _ counted, rfl⟩
  · obtain ⟨reach, -, cyc⟩ := executeStep_reach h
    exact ⟨counted.trans reach, cyc⟩

/-- A machine cycle counts one tick and moves the picture position three dots on; the configuration and the progress of
the frame step are not its own. -/
theorem machineCycle_clock {s t : State} (ok : BusOk s) (h : machineCycle s = .next t) :
    t.cfg = s.cfg ∧ t.frameCycle = s.frameCycle ∧ t.cpu.cyc = s.cpu.cyc + 1 ∧
      dotIndex t.ppu = (dotIndex s.ppu + 3) % 89342 := by
  obtain ⟨u, tick⟩ := cpuTick_answers (threeDots s)
  obtain rfl : audioUnitTick u = t := Host.Outcome.next.inj ((machineCycle_of_cpuTick tick).symm.trans h)
  obtain ⟨reach, cyc⟩ := cpuTick_reach tick
  obtain ⟨cfg, -, -, -, count⟩ := reach.hostKept
  exact ⟨cfg, count, cyc, reach.dotIndex_eq.trans (threeDots_dotIndex ok)⟩

/-! ## The frame step (R457) -/

theorem runCycles_of_step {s t : State} (h : step s = .next t) (n : Nat) : runCycles (n + 1) s = runCycles n t := by
  rw [runCycles, h]

theorem machineCycles_of_machineCycle {s t : State} (h : machineCycle s = .next t) (n : Nat) :
    machineCycles (n + 1) s = machineCycles n { t with frameCycle := t.frameCycle + 1 } := by
  rw [machineCycles, h]

/-- What every step keeps, every number of cycles keeps. -/
theorem runCycles_keeps {P : State → Prop} (keeps : ∀ s t, P s → step s = .next t → P t) {n : Nat} {s t : State}
    (start : P s) (h : runCycles n s = .next t) : P t := by
  induction n generalizing s with
  | zero => exact Host.Outcome.next.inj h ▸ start
  | succ n ih =>
    obtain ⟨u, next⟩ := step_answers s
    rw [runCycles_of_step next] at h
    exact ih (keeps s u start next) h

/-- The steps that are left of a frame step are so many machine cycles, and the last of them ends it with its audio. -/
theorem runCycles_to_frameEnd (n : Nat) {s : State} (inv : Inv s)
    (left : s.frameCycle + (n + 1) = s.cfg.params.cyclesPerFrame) :
    ∃ u, machineCycles (n + 1) s = .next u ∧ runCycles (n + 1) s = .next (withAudio { u with frameCycle := 0 }) ∧
      u.cpu.cyc = s.cpu.cyc + (n + 1) ∧ dotIndex u.ppu = (dotIndex s.ppu + 3 * (n + 1)) % 89342 := by
  induction n generalizing s with
  | zero =>
    obtain ⟨v, cycle⟩ := machineCycle_answers s
    obtain ⟨cfg, count, cyc, dots⟩ := machineCycle_clock inv.busOk cycle
    have last : v.cfg.params.cyclesPerFrame ≤ v.frameCycle + 1 := by rw [cfg, count]; omega
    refine ⟨_, machineCycles_of_machineCycle cycle 0, ?_, cyc, dots⟩
    rw [runCycles_of_step (step_of_machineCycle cycle), countCycle_last last, endFrame_eq_withAudio]
    rfl
  | succ n ih =>
    obtain ⟨v, cycle⟩ := machineCycle_answers s
    obtain ⟨cfg, count, cyc, dots⟩ := machineCycle_clock inv.busOk cycle
    have mid : v.frameCycle + 1 < v.cfg.params.cyclesPerFrame := by rw [cfg, count]; omega
    have next : step s = .next { v with frameCycle := v.frameCycle + 1 } :=
      countCycle_mid mid ▸ step_of_machineCycle cycle
    obtain ⟨u, cycles, steps, cycEnd, dotsEnd⟩ := ih (inv.step next) (by dsimp only; rw [cfg, count]; omega)
    refine ⟨u, (machineCycles_of_machineCycle cycle _).trans cycles, (runCycles_of_step next _).trans steps, ?_, ?_⟩
    · rw [cycEnd, cyc]; omega
    · rw [dotsEnd, dots]; omega

/-- Settles O16: between frame steps all the cycles of the frame step are left. -/
theorem frameStepClock : Obligations.FrameStepClock := by
  intro s inv between
  obtain ⟨n, cycles⟩ := Nat.exists_eq_succ_of_ne_zero (Nat.ne_of_gt (Nat.zero_lt_of_lt inv.frameCycle))
  obtain ⟨u, machine, steps, cyc, dots⟩ := runCycles_to_frameEnd n inv (by omega)
  rw [hostStep_between between, hostEffect, frameStep, cycles]
  exact ⟨u, _, machine, steps, rfl, cyc, dots, rfl⟩

/-! ## The operations of the host (R455 to R460, 46_apu.md R338, R339) -/

/-- An operation that answers was asked between frame steps. -/
theorem hostStep_next {op : HostOp} {s t : State} (h : hostStep op s = .next t) :
    s.frameCycle = 0 ∧ hostEffect op s = .next t := by
  by_cases between : s.frameCycle = 0
  · exact ⟨between, hostStep_between between ▸ h⟩
  · rw [hostStep_mid between] at h
    cases h

/-- The frame step answers and ends between frame steps. -/
theorem frameStep_answers {s : State} (inv : Inv s) (between : s.frameCycle = 0) :
    ∃ t, frameStep s = .next t ∧ t.frameCycle = 0 := by
  obtain ⟨_, t, -, next, -, -, -, ended⟩ := frameStepClock s inv between
  rw [hostStep_between between] at next
  exact ⟨t, next, ended⟩

/-- The invariant looks at the live state, the snapshot, the configuration and the count. -/
theorem Inv.withLive {s : State} (h : Inv s) {l : Live} (ok : LiveOk s.cfg l) : Inv { s with toLive := l } :=
  { h with live := ok }

theorem Inv.withApu {s : State} (h : Inv s) {u : Apu} (ok : ApuOk s.cfg.params u) : Inv { s with apu := u } :=
  h.withLive { h.live with apu := ok }

theorem Inv.hostReset {s : State} (h : Inv s) : Inv (hostReset s) := by
  rw [hostReset_eq]
  exact h.withLive
    { h.live with ppu := resetPpu_ok, apu := resetApu_ok _ h.qfPeriod h.live.apu.master, dmaStall := rfl }

/-- `set_buttons` changes the two button bytes at most. -/
theorem setButtons_eq (p : Bool) (b : Byte) (s : State) : setButtons p b s =
    { s with buttons0 := (setButtons p b s).buttons0, buttons1 := (setButtons p b s).buttons1 } := by
  cases p <;> rfl

/-- Between frame steps every operation keeps the invariant and ends between frame steps. -/
theorem hostEffect_inv {op : HostOp} {s t : State} (inv : Inv s) (between : s.frameCycle = 0)
    (h : hostEffect op s = .next t) : Inv t ∧ t.frameCycle = 0 := by
  cases op with
  | frameStep =>
    obtain ⟨u, next, ended⟩ := frameStep_answers inv between
    obtain rfl := Host.Outcome.next.inj (next.symm.trans h)
    exact ⟨runCycles_keeps (fun _ _ ok => ok.step) inv next, ended⟩
  | reset =>
    obtain rfl := Host.Outcome.next.inj h
    exact ⟨inv.hostReset, by rw [hostReset_eq]; exact between⟩
  | backup => exact Host.Outcome.next.inj h ▸ ⟨{ inv with snap := inv.live }, between⟩
  | restore => exact Host.Outcome.next.inj h ▸ ⟨inv.withLive inv.snap, between⟩
  | setButtons p b =>
    obtain rfl := Host.Outcome.next.inj h
    rw [setButtons_eq]
    exact ⟨{ inv with }, between⟩
  | pokeMemory k b =>
    exact Host.Outcome.next.inj h ▸
      ⟨inv.withLive { inv.live with ram := inv.live.ram.write b k.isLt }, between⟩
  | clearBuffer =>
    exact Host.Outcome.next.inj h ▸
      ⟨inv.withApu { inv.live.apu with samples := fun _ mem => (nomatch mem), capped := Nat.zero_le _ }, between⟩
  | setMasterVolume q =>
    exact Host.Outcome.next.inj h ▸
      ⟨inv.withApu { inv.live.apu with master := clamp_range q 0 1 (by decide) }, between⟩
  | setAudioEnabled on => exact Host.Outcome.next.inj h ▸ ⟨inv.withApu { inv.live.apu with }, between⟩

/-- Between frame steps every operation answers. -/
theorem hostEffect_answers (op : HostOp) {s : State} (inv : Inv s) (between : s.frameCycle = 0) :
    ∃ t, hostEffect op s = .next t := by
  cases op with
  | frameStep =>
    obtain ⟨t, next, -⟩ := frameStep_answers inv between
    exact ⟨t, next⟩
  | reset | backup | restore | setButtons | pokeMemory | clearBuffer | setMasterVolume | setAudioEnabled =>
    exact ⟨_, rfl⟩

/-- Settles O14: in mid frame step `hostStep` and `hostRead` refuse; between frame steps each operation is its function and
keeps the invariant. -/
theorem hostOperationsKeepInvariant : Obligations.HostOperationsKeepInvariant := by
  refine ⟨fun _ _ mid => hostStep_mid mid, fun op s t inv next => ?_, fun op s inv between => ?_, fun s between => ?_,
    fun s y x k => ⟨fun mid => ⟨hostRead_mid _ mid, hostRead_mid _ mid, hostRead_mid _ mid, hostRead_mid _ mid⟩,
      fun between => ⟨hostRead_between _ between, hostRead_between _ between, hostRead_between _ between,
        clearBuffer s, hostRead_between _ between, rfl, hostRead_between _ between, hostRead_between _ between⟩⟩⟩
  · obtain ⟨between, effect⟩ := hostStep_next next
    exact hostEffect_inv inv between effect
  · rw [hostStep_between between]
    exact hostEffect_answers op inv between
  · simp only [hostStep_between between]
    exact ⟨rfl, rfl, rfl, rfl, fun _ => ⟨rfl, rfl⟩, fun k b => ⟨rfl, fun wf j => Memory.read_write wf k.toNat j b⟩,
      fun _ => rfl, fun _ => rfl⟩

/-! ## The snapshot (R459) -/

/-- The snapshot and the configuration are the same. -/
def SnapshotKept (s t : State) : Prop := t.snap = s.snap ∧ t.cfg = s.cfg

theorem step_snapshotKept {s t : State} (h : step s = .next t) : SnapshotKept s t := by
  obtain ⟨cfg, snap, -⟩ := stepLeavesHostState s t h
  exact ⟨snap, cfg⟩

theorem runCycles_snapshotKept {n : Nat} {s t : State} (h : runCycles n s = .next t) : SnapshotKept s t :=
  runCycles_keeps (P := SnapshotKept s)
    (fun _ _ ⟨snap, cfg⟩ next =>
      let ⟨snap', cfg'⟩ := step_snapshotKept next
      ⟨snap'.trans snap, cfg'.trans cfg⟩)
    ⟨rfl, rfl⟩ h

/-- No operation of the host but `backup` touches the snapshot. -/
theorem hostEffect_snapshotKept {op : HostOp} {s t : State} (other : op ≠ .backup) (h : hostEffect op s = .next t) :
    SnapshotKept s t := by
  cases op with
  | frameStep => exact runCycles_snapshotKept h
  | backup => exact absurd rfl other
  | reset =>
    obtain rfl := Host.Outcome.next.inj h
    rw [hostReset_eq]
    exact ⟨rfl, rfl⟩
  | setButtons p b =>
    obtain rfl := Host.Outcome.next.inj h
    rw [setButtons_eq]
    exact ⟨rfl, rfl⟩
  | restore | pokeMemory | clearBuffer | setMasterVolume | setAudioEnabled =>
    exact Host.Outcome.next.inj h ▸ ⟨rfl, rfl⟩

/-- Operations in order: each of them answers. -/
theorem runOps_cons {op : HostOp} {ops : List HostOp} {s t : State} (h : runOps (op :: ops) s = .next t) :
    ∃ u, hostEffect op s = .next u ∧ runOps ops u = .next t := by
  rw [runOps] at h
  cases e : hostStep op s with
  | next u =>
    rw [e] at h
    exact ⟨u, (hostStep_next e).2, h⟩
  | fault r => cases r
  | refused r =>
    rw [e] at h
    cases h

/-- A `restore` at the end gives back the snapshot that stood at the start, if no `backup` came in between. -/
theorem runOps_restore {ops : List HostOp} {s t : State} (noBackup : HostOp.backup ∉ ops)
    (h : runOps (ops ++ [.restore]) s = .next t) : t.toLive = s.snap ∧ t.cfg = s.cfg := by
  induction ops generalizing s with
  | nil =>
    obtain ⟨u, effect, done⟩ := runOps_cons h
    obtain rfl := Host.Outcome.next.inj (effect.trans done)
    exact ⟨rfl, rfl⟩
  | cons op ops ih =>
    obtain ⟨notOp, notOps⟩ := List.ne_and_not_mem_of_not_mem_cons noBackup
    obtain ⟨u, effect, rest⟩ := runOps_cons h
    obtain ⟨snap, cfg⟩ := hostEffect_snapshotKept notOp.symm effect
    obtain ⟨live, cfg'⟩ := ih notOps rest
    exact ⟨live.trans snap, cfg'.trans cfg⟩

/-- Settles O60: neither a step nor an operation but `backup` touches the snapshot, which `restore` copies back. -/
theorem backupRestore : Obligations.BackupRestore := by
  refine ⟨fun _ => rfl, fun n s t run => ?_, fun ops s t noBackup _ run => ?_⟩
  · obtain ⟨snap, cfg⟩ := runCycles_snapshotKept run
    exact ⟨snap, rfl, rfl, cfg⟩
  · obtain ⟨u, effect, rest⟩ := runOps_cons run
    obtain rfl := Host.Outcome.next.inj effect
    exact runOps_restore noBackup rest

end Sys2Proof.Machine
